-- ==== Sys2Proof/Word.lean ====
section
/-!
DEFINITION. The words of the model: the widths the manual names, and `Tab`, a table with one row for
each numbered unit (00_scope.md 0.10: "A table has one row for each numbered unit, condition or chain").
-/
namespace Sys2Proof

/-- One byte of a frame (R192, R194). -/
abbrev Byte := BitVec 8
/-- One 32-bit field of a reply or a notice (R193). -/
abbrev Word := BitVec 32
/-- The part's millisecond tick, a 32-bit count that wraps (00_scope.md 0.6). -/
abbrev Tick := BitVec 32
/-- A row's revision, 16 bits, wraps (00_scope.md 0.12). -/
abbrev Revision := BitVec 16
/-- A cycle stamp, 0 to 63 (01, 1.1). -/
abbrev Stamp := BitVec 6

/-- A table of `n` rows. -/
structure Tab (n : Nat) (α : Type) where
  /-- The rows in ascending number. -/
  cells : Vector α n
  deriving DecidableEq, Repr

namespace Tab

variable {n : Nat} {α : Type}

/-- Every row the same. -/
def const (n : Nat) (x : α) : Tab n α := ⟨Vector.replicate n x⟩

/-- Row `i` is `f i`. -/
def ofFn (f : Fin n → α) : Tab n α := ⟨Vector.ofFn f⟩

/-- Row `i`. -/
def get (t : Tab n α) (i : Fin n) : α := t.cells[i]

/-- The table with row `i` replaced. -/
def put (t : Tab n α) (i : Fin n) (x : α) : Tab n α := ⟨t.cells.set i x⟩

/-- The table with row `i` changed by `f`. -/
def modify (t : Tab n α) (i : Fin n) (f : α → α) : Tab n α := t.put i (f (t.get i))

/-- Every row changed by `f`. (Irreducible, so that comparing two states does not unfold a whole table.) -/
@[irreducible]
def mapIdx (t : Tab n α) (f : Fin n → α → α) : Tab n α := ofFn fun i => f i (t.get i)

@[simp] theorem get_put_self (t : Tab n α) (i : Fin n) (x : α) : (t.put i x).get i = x := by
  simp [get, put]

theorem get_put_ne (t : Tab n α) (i j : Fin n) (x : α) (h : i ≠ j) : (t.put i x).get j = t.get j := by
  have : i.val ≠ j.val := fun e => h (Fin.ext e)
  simp [get, put, this]

theorem get_put (t : Tab n α) (i j : Fin n) (x : α) :
    (t.put i x).get j = if i = j then x else t.get j := by
  split
  · next h => subst h; simp
  · next h => exact get_put_ne t i j x h

@[simp] theorem get_modify_self (t : Tab n α) (i : Fin n) (f : α → α) :
    (t.modify i f).get i = f (t.get i) := by simp [modify]

theorem get_modify_ne (t : Tab n α) (i j : Fin n) (f : α → α) (h : i ≠ j) :
    (t.modify i f).get j = t.get j := get_put_ne t i j _ h

@[simp] theorem get_ofFn (f : Fin n → α) (i : Fin n) : (ofFn f).get i = f i := by simp [get, ofFn]

@[simp] theorem get_const (x : α) (i : Fin n) : (const n x).get i = x := by simp [get, const]

@[simp] theorem get_mapIdx (t : Tab n α) (f : Fin n → α → α) (i : Fin n) :
    (t.mapIdx f).get i = f i (t.get i) := by simp [mapIdx]

theorem ext_get {t u : Tab n α} (h : ∀ i, t.get i = u.get i) : t = u := by
  cases t; cases u; congr; ext i hi; exact h ⟨i, hi⟩

end Tab

end Sys2Proof
end

