-- ==== Sys2Proof/Config.lean ====
section
/-!
DEFINITION. What the part fixes once: capacities, fixed limits and codes, the names of the settings
items, and the one free value.
-/
namespace Sys2Proof

/-- The 369 items of the settings image (9.2), each named by its table, row and field. Rows count from
0 as R195 codes them (unit number − 1, condition number, list number). -/
inductive ItemName where
  /-- SYS, the 38 fields of R195. -/
  | sys (f : Fin 38)
  /-- GEN: installed, rated, floor_pct, black_start_capable. -/
  | gen (r : Fin 6) (f : Fin 4)
  /-- PLANT: installed, capacity, class. -/
  | plant (r : Fin 8) (f : Fin 3)
  /-- FEEDER: installed, essential, restore_rank, nominal_load. -/
  | feeder (r : Fin 16) (f : Fin 4)
  /-- COND: enable, level, mode, response kind, hold_off, alarm route. -/
  | cond (r : Fin 24) (f : Fin 6)
  /-- SHEDLIST: length, entries 1 to 16. -/
  | shed (r : Fin 4) (f : Fin 17)
  /-- MERIT: length, entries 1 to 6. -/
  | merit (f : Fin 7)
  deriving DecidableEq, Repr

namespace Config

/-- Notices the FIFO holds (R188). -/
def noticeCapacity : Nat := 32
/-- Slots of the receive buffer (R180). -/
def receiveSlots : Nat := 2
/-- The idle time that ends a partly received host frame, ms: the first whole tick that is more than 2 ms
after the last character (R179; log entry 46). -/
def characterIdleMs : Nat := 3
/-- Largest body of a host frame (R192). -/
def maxBody : Nat := 240
/-- SYNC (R192). -/
def syncByte : Byte := 0xA5
/-- Restarts an attempt may make (R147: "The restart limit is fixed at 3"). -/
def restartLimit : Nat := 3
/-- The stable-since timer stops counting here (R36). -/
def stableLimit : Nat := 600000
/-- The greatest min_run, ms (R96): the count of a set's time ONLINE stops here (log entry 39). -/
def minRunLimitMs : Nat := 3600000
/-- Period of the BUS_SILENT fallback tick, ms (R51). -/
def silentTickMs : Nat := 20
/-- Period of the SETTINGS_FAULT fallback tick, ms (R52). -/
def faultTickMs : Nat := 1000
/-- A scan completes this long after its start, ms (R176). -/
def scanMs : Nat := 1000
/-- Vendor code (R193). -/
def vendorCode : Nat := 0x0E71
/-- Part code (R184). -/
def partCode : Nat := 632
/-- Silicon revision (R184: "The part that this manual describes is revision 1"). -/
def siliconRevision : Nat := 1
/-- Hand-overs one command may deliver before the rest wait in State (log entry 6). -/
def cascadeFuel : Nat := 4096

/-- FREE VALUE, DESIGN CHOICE (log entry 14): R193 gives the empty pass record no code for its absent
bus stamp, which stands in one byte. Nothing constrains it. -/
opaque emptyStampByte : Byte

end Config

end Sys2Proof
end

