-- ==== Sys2Proof/Syntax.lean ====
section
/-!
DEFINITION. The commands of the part: one constructor for each row of spec/opcode_table.json, in the
table's order. A host request carries its tag and its body bytes as R192 and R193 lay them out, a
sample frame its burst of bytes (R194), a set, feeder or condition event the number of its unit.
Sets and feeders count from 0 here (G1 is 0, F1 is 0); conditions count from 0 as in the manual.
-/
namespace Sys2Proof

inductive Instr where
  /-- POWER_ON (R163): supply applied or RESET_N released, with the two line rate straps. -/
  | powerOn (strap1 strap2 : Bool)
  /-- IDENTIFY (R184). -/
  | identify (tag : Byte) (body : List Byte)
  /-- READ (R185). -/
  | read (tag : Byte) (body : List Byte)
  /-- STATUS (R186). -/
  | status (tag : Byte) (body : List Byte)
  /-- PASS (R187). -/
  | pass (tag : Byte) (body : List Byte)
  /-- WRITE (R171). -/
  | write (tag : Byte) (body : List Byte)
  /-- COMMIT (R165). -/
  | commit (tag : Byte) (body : List Byte)
  /-- TUNE (R174). -/
  | tune (tag : Byte) (body : List Byte)
  /-- ENGAGE (R166). -/
  | engage (tag : Byte) (body : List Byte)
  /-- DISENGAGE (R167). -/
  | disengage (tag : Byte) (body : List Byte)
  /-- RESTART (R164). -/
  | restart (tag : Byte) (body : List Byte)
  /-- SAFE (R168). -/
  | safe (tag : Byte) (body : List Byte)
  /-- AUTO (R65). -/
  | auto (tag : Byte) (body : List Byte)
  /-- FORCE (R62). -/
  | force (tag : Byte) (body : List Byte)
  /-- CLEAR (R63). -/
  | clear (tag : Byte) (body : List Byte)
  /-- ACK (R75). -/
  | ack (tag : Byte) (body : List Byte)
  /-- BIND (R79). -/
  | bind (tag : Byte) (body : List Byte)
  /-- UNBIND (R80). -/
  | unbind (tag : Byte) (body : List Byte)
  /-- STEP (R93). -/
  | step (tag : Byte) (body : List Byte)
  /-- GENSET (R117). -/
  | genset (tag : Byte) (body : List Byte)
  /-- RUNTIME (R112). -/
  | runtime (tag : Byte) (body : List Byte)
  /-- FEEDER (R138). -/
  | feeder (tag : Byte) (body : List Byte)
  /-- PLANT (R45). -/
  | plant (tag : Byte) (body : List Byte)
  /-- BLACKSTART (R159). -/
  | blackstart (tag : Byte) (body : List Byte)
  /-- REQUEST_UNKNOWN (R181): a held frame whose kind is no request code. -/
  | requestUnknown (kind tag : Byte) (body : List Byte)
  /-- HOST_FRAME_RECEIVED (R179): characters arrive on the host line. -/
  | hostFrameReceived (chars : List Byte)
  /-- HOST_CHARACTER_TIMEOUT (R179). -/
  | hostCharacterTimeout
  /-- REPLY_SEND (R183). -/
  | replySend
  /-- NOTICE_SEND (R189). -/
  | noticeSend
  /-- POWER_FRAME (R6), with the burst of the frame (R194). -/
  | powerFrame (burst : List Byte)
  /-- BUS_RECORD (R14), with the burst of the frame (R194). -/
  | busRecord (burst : List Byte)
  /-- BUS_SILENCE_TIMER_EXPIRY (R10). -/
  | busSilenceTimerExpiry
  /-- DEAD_TIMER_EXPIRY (R13). -/
  | deadTimerExpiry
  /-- BALANCE_PASS (R18). -/
  | balancePass
  /-- CEILING_FRAME_SEND (R46). -/
  | ceilingFrameSend
  /-- SILENT_FALLBACK_TICK (R51). -/
  | silentFallbackTick
  /-- FAULT_FALLBACK_TICK (R52). -/
  | faultFallbackTick
  /-- HOLD_OFF_EXPIRY (R60) of condition `c`. -/
  | holdOffExpiry (c : Fin 24)
  /-- RUNNING_RISES (R111) of set `g`. -/
  | runningRises (g : Fin 6)
  /-- RUNNING_FALLS (R107) of set `g`. -/
  | runningFalls (g : Fin 6)
  /-- BREAKER_RISES (R105) of set `g`. -/
  | breakerRises (g : Fin 6)
  /-- BREAKER_FALLS (R109) of set `g`. -/
  | breakerFalls (g : Fin 6)
  /-- READY_RISES (R110) of set `g`. -/
  | readyRises (g : Fin 6)
  /-- READY_FALLS (R110) of set `g`. -/
  | readyFalls (g : Fin 6)
  /-- CRANK_TIMER_EXPIRY (R102) of set `g`. -/
  | crankTimerExpiry (g : Fin 6)
  /-- REST_TIMER_EXPIRY (R103) of set `g`. -/
  | restTimerExpiry (g : Fin 6)
  /-- SYNC_TIMER_EXPIRY (R106) of set `g`. -/
  | syncTimerExpiry (g : Fin 6)
  /-- STOP_TIMER_EXPIRY (R108) of set `g`. -/
  | stopTimerExpiry (g : Fin 6)
  /-- MIN_RUN_TIMER_EXPIRY (R98) of set `g`. -/
  | minRunTimerExpiry (g : Fin 6)
  /-- RUN_SECOND (R112) of set `g`. -/
  | runSecond (g : Fin 6)
  /-- FEEDER_BREAKER_FALLS (R129) of feeder `f`. -/
  | feederBreakerFalls (f : Fin 16)
  /-- FEEDER_BREAKER_RISES (R132) of feeder `f`. -/
  | feederBreakerRises (f : Fin 16)
  /-- BREAKER_TIMER_EXPIRY (R130) of feeder `f`. -/
  | breakerTimerExpiry (f : Fin 16)
  /-- FIRST_CLOSE_TIMER_EXPIRY (R152). -/
  | firstCloseTimerExpiry
  /-- ENERGIZE_TIMER_EXPIRY (R153). -/
  | energizeTimerExpiry
  /-- ENERGIZE_LIMIT_TIMER_EXPIRY (R157). -/
  | energizeLimitTimerExpiry
  /-- SETTLE_TIMER_EXPIRY (R155). -/
  | settleTimerExpiry
  /-- SCAN_ITEM_READ (R176). -/
  | scanItemRead
  /-- SCAN_COMPLETION (R176). -/
  | scanCompletion
  /-- RESET_N_ASSERTED (R163). -/
  | resetNAsserted
  /-- SAMPLE_FRAME_RECEIVED (R17), with the burst. -/
  | sampleFrameReceived (burst : List Byte)
  deriving DecidableEq, Repr

end Sys2Proof
end

