-- ==== Sys2Proof/Decode.lean ====
section
/-!
DEFINITION. The command a table word spells. No row of spec/opcode_table.json gives bits, so no word spells one.
-/
namespace Sys2Proof

/-- The command of an instruction word numbered as spec/opcode_table.json numbers bits: none, since the
table gives no row any bits. -/
def decodeTableWord (_nbits _w : Nat) : Option Instr := none

end Sys2Proof
end

