-- ==== Sys2Proof/Machine/Settings.lean ====
section
/-!
DEFINITION. The ranges and defaults of the settings items (R15, R43, R54, R55, R96, R124, R147, R173),
which of them are fixed or tunable (R55, R174), and the check order (R175).
-/
namespace Sys2Proof

namespace Sys
/-! The SYS field codes of R195. -/
abbrev staleLimit : Fin 38 := 0
abbrev busSilenceLimit : Fin 38 := 1
abbrev deadTime : Fin 38 := 2
abbrev fNom : Fin 38 := 3
abbrev rocofWindow : Fin 38 := 4
abbrev floorMargin : Fin 38 := 5
abbrev droopDb : Fin 38 := 6
abbrev droopSpan : Fin 38 := 7
abbrev rampUpStep : Fin 38 := 8
abbrev reservePct : Fin 38 := 9
abbrev reserveFixed : Fin 38 := 10
abbrev stopMargin : Fin 38 := 11
abbrev overloadPct : Fin 38 := 12
abbrev ufDeep : Fin 38 := 13
abbrev ufLow : Fin 38 := 14
abbrev ofThreshold : Fin 38 := 15
abbrev rocofThreshold : Fin 38 := 16
abbrev restoreFMin : Fin 38 := 17
abbrev restoreDelay : Fin 38 := 18
abbrev restoreMargin : Fin 38 := 19
abbrev ceilingDeadband : Fin 38 := 20
abbrev refreshPasses : Fin 38 := 21
abbrev silentFallback : Fin 38 := 22
abbrev faultFallback : Fin 38 := 23
abbrev levels : Fin 38 := 24
abbrev policy : Fin 38 := 25
abbrev crankPermits : Fin 38 := 26
abbrev crankTime : Fin 38 := 27
abbrev restTime : Fin 38 := 28
abbrev maxAttempts : Fin 38 := 29
abbrev syncTime : Fin 38 := 30
abbrev stopTime : Fin 38 := 31
abbrev minRun : Fin 38 := 32
abbrev breakerTime : Fin 38 := 33
abbrev blackStartPermitted : Fin 38 := 34
abbrev energizeTime : Fin 38 := 35
abbrev firstCloseTime : Fin 38 := 36
abbrev settleTime : Fin 38 := 37
end Sys

/-- Lowest value, highest value and default of a SYS field. f_nom takes only its two ends (R43). -/
def sysSpec (f : Fin 38) : Int × Int × Int :=
  match f.val with
  | 0 => (2, 30, 10)
  | 1 => (20, 1000, 100)
  | 2 => (100, 5000, 500)
  | 3 => (50000, 60000, 50000)
  | 4 => (2, 16, 8)
  | 5 => (0, 5000, 50)
  | 6 => (0, 1000, 200)
  | 7 => (200, 5000, 2000)
  | 8 => (1, 5000, 10)
  | 9 => (0, 100, 30)
  | 10 => (0, 20000, 100)
  | 11 => (0, 20000, 200)
  | 12 => (80, 120, 100)
  | 13 => (40000, 70000, 47500)
  | 14 => (40000, 70000, 48800)
  | 15 => (40000, 70000, 51500)
  | 16 => (100, 5000, 1000)
  | 17 => (40000, 70000, 49800)
  | 18 => (1000, 600000, 30000)
  | 19 => (0, 5000, 100)
  | 20 => (0, 500, 5)
  | 21 => (1, 250, 50)
  | 22 => (0, 2, 0)
  | 23 => (0, 2, 1)
  | 24 => (0, 1, 1)
  | 25 => (0, 1, 0)
  | 26 => (1, 3, 1)
  | 27 => (1000, 30000, 10000)
  | 28 => (1000, 60000, 15000)
  | 29 => (1, 5, 3)
  | 30 => (5000, 120000, 30000)
  | 31 => (10000, 600000, 300000)
  | 32 => (0, 3600, 900)
  | 33 => (50, 2000, 300)
  | 34 => (0, 1, 0)
  | 35 => (500, 30000, 2000)
  | 36 => (10000, 300000, 60000)
  | _ => (500, 60000, 3000)

/-- Default level, mode, response kind and hold_off of a condition (the table of R55). Modes: EDGE 0,
HOLD 1. Kinds: NOTICE 0, CHAINS 1, START_NEXT 2, STOP_NEXT 3, RESTORE_NEXT 4, BLACK_START 5. -/
def condSpec (c : Fin 24) : Int × Int × Int × Int :=
  match c.val with
  | 0 => (7, 1, 5, 0)
  | 1 => (6, 1, 1, 200)
  | 2 => (5, 0, 1, 0)
  | 3 => (4, 1, 1, 1000)
  | 4 => (4, 1, 1, 1000)
  | 5 => (3, 0, 2, 0)
  | 6 => (2, 1, 2, 5000)
  | 7 => (2, 0, 0, 0)
  | 10 => (1, 1, 3, 60000)
  | 11 => (1, 1, 4, 10000)
  | 12 => (3, 0, 0, 0)
  | _ => (1, 0, 0, 0)

/-- The default of an item (R170: "Every item of the image has a range and a default"). -/
def ItemName.default : ItemName → Int
  | .sys f => (sysSpec f).2.2
  | .gen _ f => match f.val with | 1 => 1000 | 2 => 30 | _ => 0
  | .plant _ f => match f.val with | 1 => 1000 | 2 => 1 | _ => 0
  | .feeder _ f => match f.val with | 2 => 8 | _ => 0
  | .cond c f =>
    match f.val with
    | 0 => if c.val = 0 then 1 else 0
    | 1 => (condSpec c).1
    | 2 => (condSpec c).2.1
    | 3 => (condSpec c).2.2.1
    | 4 => (condSpec c).2.2.2
    | _ => 0
  | .shed _ _ => 0
  | .merit _ => 0

/-- `lo ≤ v ≤ hi`; every range includes both its ends (R1). -/
def between (lo hi v : Int) : Bool := lo ≤ v && v ≤ hi

/-- Whether a value lies in the item's range. The four fixed fields of C0 hold one value each (R170). -/
def ItemName.inRange : ItemName → Int → Bool
  | .sys f, v =>
    if f = Sys.fNom then v = 50000 || v = 60000 else between (sysSpec f).1 (sysSpec f).2.1 v
  | .gen _ f, v =>
    match f.val with | 1 => between 50 20000 v | 2 => between 0 60 v | _ => between 0 1 v
  | .plant _ f, v => match f.val with | 1 => between 1 30000 v | _ => between 0 1 v
  | .feeder _ f, v =>
    match f.val with | 2 => between 1 16 v | 3 => between 0 20000 v | _ => between 0 1 v
  | .cond c f, v =>
    match f.val with
    | 0 => if c.val = 0 then v = 1 else between 0 1 v
    | 1 => if c.val = 0 then v = 7 else between 0 6 v
    | 2 => if c.val = 0 then v = 1 else between 0 1 v
    | 3 => if c.val = 0 then v = 5 else between 0 4 v
    | 4 => between 0 600000 v
    | _ => between 0 2 v
  | .shed _ _, v => between 0 16 v
  | .merit _, v => between 0 6 v

/-- The four fields of C0 that no WRITE or TUNE changes (R55, R170). -/
def ItemName.fixed : ItemName → Bool
  | .cond c f => c.val = 0 && f.val < 4
  | _ => false

/-- The tunable fields of R174. -/
def ItemName.tunable : ItemName → Bool
  | .sys f => f ∈ [Sys.floorMargin, Sys.rampUpStep, Sys.reservePct, Sys.reserveFixed, Sys.stopMargin,
      Sys.overloadPct, Sys.ufDeep, Sys.ufLow, Sys.ofThreshold, Sys.rocofThreshold, Sys.restoreFMin,
      Sys.restoreMargin, Sys.ceilingDeadband, Sys.refreshPasses]
  | .cond c f => f.val = 4 || f.val = 5 || (c.val ≠ 0 && f.val < 2)
  | _ => false

/-- The item that a table, row and field code names, or none (R195). -/
def itemOfCodes (table row field : Nat) : Option ItemName :=
  match table with
  | 0 => if row = 0 then (if h : field < 38 then some (.sys ⟨field, h⟩) else none) else none
  | 1 => if h : row < 6 ∧ field < 4 then some (.gen ⟨row, h.1⟩ ⟨field, h.2⟩) else none
  | 2 => if h : row < 8 ∧ field < 3 then some (.plant ⟨row, h.1⟩ ⟨field, h.2⟩) else none
  | 3 => if h : row < 16 ∧ field < 4 then some (.feeder ⟨row, h.1⟩ ⟨field, h.2⟩) else none
  | 4 => if h : row < 24 ∧ field < 6 then some (.cond ⟨row, h.1⟩ ⟨field, h.2⟩) else none
  | 5 => if h : row < 4 ∧ field < 17 then some (.shed ⟨row, h.1⟩ ⟨field, h.2⟩) else none
  | 6 => if row = 0 then (if h : field < 7 then some (.merit ⟨field, h⟩) else none) else none
  | _ => none

/-- Table, row and field codes of an item (R195). -/
def ItemName.codes : ItemName → Nat × Nat × Nat
  | .sys f => (0, 0, f.val)
  | .gen r f => (1, r.val, f.val)
  | .plant r f => (2, r.val, f.val)
  | .feeder r f => (3, r.val, f.val)
  | .cond c f => (4, c.val, f.val)
  | .shed r f => (5, r.val, f.val)
  | .merit f => (6, 0, f.val)

/-- The cells of a table in ascending row and field. -/
def rowsOf (n m : Nat) (mk : Fin n → Fin m → ItemName) : List ItemName :=
  (List.finRange n).flatMap fun r => (List.finRange m).map (mk r)

/-- The 369 items in ascending order of table, row and field: the check order of R175. -/
def checkOrder : List ItemName :=
  (List.finRange 38).map .sys ++ rowsOf 6 4 .gen ++ rowsOf 8 3 .plant ++ rowsOf 16 4 .feeder ++
    rowsOf 24 6 .cond ++ rowsOf 4 17 .shed ++ (List.finRange 7).map .merit

end Sys2Proof
end

