-- ==== Sys2Proof/Machine/State.lean ====
section
/-!
DEFINITION. The state of the part as plain data, block by block, and the state after power-on.
INVENTORY.md lists every piece with the rule that names it. A line the part drives (START, STOP,
DEADBUS, TRIP, CLOSE, ALARM_A, ALARM_B) is computed from the state that fixes it (log entry 9).
-/
namespace Sys2Proof.Machine

/-! ### SRX -/

/-- FRESH or STALE (1.2). -/
inductive Judgement where
  | fresh | stale
  deriving DecidableEq, Repr

/-- Kind of the last bus record; NONE before the first (1.2). -/
inductive BusKind where
  | none | period | dead
  deriving DecidableEq, Repr

/-- One entry of the unit sample table (1.2). -/
structure HeadEntry where
  /-- The last value taken, or absent. -/
  value : Option Int
  stamp : Stamp
  /-- Bus records taken since the last good frame, 0 to 255. -/
  framesSince : Nat
  judgement : Judgement
  deriving DecidableEq, Repr

/-- The Sample Receiver. A timer is idle (`none`) or holds its due tick. -/
structure Srx where
  heads : Tab 31 HeadEntry
  lastKind : BusKind
  busStamp : Option Stamp
  silenceTimer : Option Tick
  deadTimer : Option Tick
  busSilent : Bool
  busDead : Bool
  /-- The receive stage of one frame (R17). -/
  stage : Option (List Byte)
  deriving DecidableEq, Repr

/-! ### BEN -/

/-- What SRX hands over with a pass start (R14). `heads` is the copy of the sample table. -/
structure PassStart where
  kind : BusKind
  value : Nat
  stamp : Stamp
  heads : Tab 31 HeadEntry
  deriving DecidableEq, Repr

/-- One entry of the frequency ring (R22): f in mHz, T in ticks. -/
structure RingEntry where
  f : Int
  t : Int
  deriving DecidableEq, Repr

/-- The pass record (R42). Absent fields are `none`. -/
structure PassRecord where
  number : BitVec 32
  stamp : Option Stamp
  kind : BusKind
  f : Option Int
  rocof : Option Int
  settled : Bool
  clamped : Bool
  g : Option Int
  p : Option Int
  fl : Option Int
  rg : Option Int
  fg : Option Int
  h : Option Int
  r : Option Int
  aFloor : Option Int
  aCap : Option Int
  aDroop : Option Int
  aRamp : Option Int
  a : Option Int
  ceilings : Tab 8 (Option Int)
  stableTime : Option Int
  staleHeads : List (Fin 31)
  deriving DecidableEq, Repr

/-- The empty pass record (R19). -/
def PassRecord.empty : PassRecord where
  number := 0
  stamp := none
  kind := .none
  f := none
  rocof := none
  settled := false
  clamped := false
  g := none
  p := none
  fl := none
  rg := none
  fg := none
  h := none
  r := none
  aFloor := none
  aCap := none
  aDroop := none
  aRamp := none
  a := none
  ceilings := Tab.const 8 none
  stableTime := none
  staleHeads := []

/-- The Balance Engine. -/
structure Ben where
  /-- Oldest first (R22). -/
  ring : List RingEntry
  aPrev : Int
  /-- Milliseconds counted by the stable-since timer (R36). -/
  stableMs : Nat
  passNumber : BitVec 32
  record : PassRecord
  /-- Pass starts handed over and not yet taken, oldest first (R14, R18). -/
  starts : List PassStart
  deriving DecidableEq, Repr

/-! ### CTX -/

/-- The choices of the two fallback settings (3.5). -/
inductive Fallback where
  | hold | zero | full
  deriving DecidableEq, Repr

/-- The live fields of a plant row (3.1). -/
structure Plant where
  inService : Bool
  lastSent : Option Int
  revision : Revision
  deriving DecidableEq, Repr

/-- A fallback that stands: the choice read at its beginning and the due tick of its timer. -/
structure FallbackRun where
  choice : Fallback
  due : Tick
  deriving DecidableEq, Repr

/-- The Ceiling Transmitter. -/
structure Ctx where
  plants : Tab 8 Plant
  /-- The pending set: at most one ceiling for each plant (R46). -/
  waiting : Tab 8 (Option Int)
  capPct : Int
  forcedZero : Bool
  refreshCount : Nat
  /-- The BUS_SILENT fallback (R51). -/
  silent : Option FallbackRun
  /-- The SETTINGS_FAULT fallback (R52). -/
  fault : Option FallbackRun
  /-- The ceiling frame last started on the setpoint link (R46). -/
  line : Option (List Byte)
  deriving DecidableEq, Repr

/-! ### RSC -/

/-- Response kinds (R55, R69). -/
inductive ResponseKind where
  | notice | chains | startNext | stopNext | restoreNext | blackStart
  deriving DecidableEq, Repr

/-- Outcomes a block reports (R71, R91). -/
inductive StepOutcome where
  | done | none | failed
  deriving DecidableEq, Repr

/-- Alarm latch states (R74). -/
inductive Latch where
  | idle | active | activeAcked | clearedUnacked
  deriving DecidableEq, Repr

/-- Live state of a condition row (4.1). -/
structure CondRow where
  flag : Bool
  /-- The last presented value; false throughout for event and user conditions. -/
  last : Bool
  holdOff : Option Tick
  latch : Latch
  /-- Subject of the raise that set the flag (R57, R69). -/
  raisedBy : Option Nat
  deriving DecidableEq, Repr

/-- An entry of the active set; its level is its place (R70). -/
structure ActiveEntry where
  cond : Fin 24
  kind : ResponseKind
  since : Tick
  deriving DecidableEq, Repr

/-- The Response Controller. -/
structure Rsc where
  rows : Tab 24 CondRow
  /-- The latch of SETTINGS_FAULT (R74, number 24). -/
  faultLatch : Latch
  /-- The active set, keyed by level: place `k` is level `k + 1`. -/
  active : Tab 7 (Option ActiveEntry)
  auto : Bool
  /-- The C0 suppression (R64). -/
  suppress : Bool
  deriving DecidableEq, Repr

/-! ### Units and origins -/

/-- A set or a feeder. -/
inductive PlantUnit where
  | set (g : Fin 6)
  | feeder (f : Fin 16)
  deriving DecidableEq, Repr

/-- Who asked for a start, a stop or a breaker operation (R97, R125). -/
inductive Origin where
  | chain (n : Fin 6)
  | response (c : Fin 24)
  | blackstart
  | host
  | manual
  deriving DecidableEq, Repr

/-! ### CHU -/

inductive ChainKind where
  | shed | restore | start | stop | capDown | capUp
  deriving DecidableEq, Repr

inductive ChainMode where
  | single | burst | count
  deriving DecidableEq, Repr

/-- A step in flight: the condition whose acceptance took it (none for STEP), the units that have not
ended, and whether one of them failed (R91). -/
structure Flight where
  forCond : Option (Fin 24)
  units : List PlantUnit
  failed : Bool
  deriving DecidableEq, Repr

/-- A chain record (5.1). The chain is in-step while `flight` is present. -/
structure Chain where
  trigger : Option (Fin 24)
  kind : ChainKind
  list : Option (Fin 4)
  cursor : Nat
  count : Nat
  mode : ChainMode
  stepSize : Option Nat
  flight : Option Flight
  revision : Revision
  deriving DecidableEq, Repr

/-! ### GSD -/

/-- The nine states of a set (R98). -/
inductive SetState where
  | unavailable | standby | queued | cranking | runUp | online | stopping | rest | lockout
  deriving DecidableEq, Repr

/-- The live record of a set (R97), with its millisecond accumulator (R112) and its three inputs. `onlineMs` is the
model's own: the time ONLINE since online-since, counted to the greatest min_run, and 0 outside ONLINE, which the stop
selection holds against min_run (R96; DESIGN CHOICE, log entry 39). -/
structure SetRec where
  state : SetState
  attempts : Nat
  timer : Option Tick
  retry : Bool
  onlineSince : Option Tick
  minRunMet : Bool
  minRunTimer : Option Tick
  onlineMs : Nat
  origin : Option Origin
  stopOwner : Option Origin
  runSeconds : BitVec 32
  accumulator : Nat
  outOfService : Bool
  revision : Revision
  running : Bool
  breaker : Bool
  ready : Bool
  deriving DecidableEq, Repr

/-- The Set Dispatcher. -/
structure Gsd where
  sets : Tab 6 SetRec
  /-- Head first (R100). -/
  queue : List (Fin 6)
  permits : Nat
  deriving DecidableEq, Repr

/-! ### FDC -/

/-- The seven states of a feeder (R126). -/
inductive FeederState where
  | closed | tripping | openShed | openExt | closing | failed | outOfService
  deriving DecidableEq, Repr

/-- The live record of a feeder (R125), with its BREAKER input. -/
structure FeederRec where
  state : FeederState
  origin : Option Origin
  timer : Option Tick
  preShed : Option Int
  outOfService : Bool
  revision : Revision
  breaker : Bool
  deriving DecidableEq, Repr

/-- The Feeder Controller. -/
structure Fdc where
  feeders : Tab 16 FeederRec
  /-- The restore queue, head first (R135). -/
  queue : List (Fin 16)
  clearFlag : Bool
  /-- The clear has been taken and its settlement is not yet reported (R141). -/
  settleOwed : Bool
  deriving DecidableEq, Repr

/-! ### BSS -/

inductive Program where
  | idle | clearing | first | energizing | restoring | failed
  deriving DecidableEq, Repr

inductive Phase where
  | wait | close | settle | start
  deriving DecidableEq, Repr

/-- The Black Start Sequencer (R146). -/
structure Bss where
  program : Program
  phase : Option Phase
  restarts : Nat
  /-- The tried set: row `g` is true when set `g` is in it. -/
  tried : Tab 6 Bool
  holder : Option (Fin 6)
  firstSet : Option (Fin 6)
  awaited : Option PlantUnit
  firstCloseTimer : Option Tick
  energizeTimer : Option Tick
  limitTimer : Option Tick
  settleTimer : Option Tick
  deriving DecidableEq, Repr

/-! ### SST -/

inductive Mode where
  | setup | check | run | safe
  deriving DecidableEq, Repr

/-- The settings image (9.2): a signed value for each item. -/
structure Image where
  sys : Tab 38 Int
  gen : Tab 6 (Tab 4 Int)
  plant : Tab 8 (Tab 3 Int)
  feeder : Tab 16 (Tab 4 Int)
  cond : Tab 24 (Tab 6 Int)
  shed : Tab 4 (Tab 17 Int)
  merit : Tab 7 Int
  deriving DecidableEq, Repr

/-- The value of an item. -/
def Image.get (m : Image) : ItemName → Int
  | .sys f => m.sys.get f
  | .gen r f => (m.gen.get r).get f
  | .plant r f => (m.plant.get r).get f
  | .feeder r f => (m.feeder.get r).get f
  | .cond r f => (m.cond.get r).get f
  | .shed r f => (m.shed.get r).get f
  | .merit f => m.merit.get f

/-- The image with an item changed. -/
def Image.put (m : Image) (k : ItemName) (v : Int) : Image :=
  match k with
  | .sys f => { m with sys := m.sys.put f v }
  | .gen r f => { m with gen := m.gen.modify r (·.put f v) }
  | .plant r f => { m with plant := m.plant.modify r (·.put f v) }
  | .feeder r f => { m with feeder := m.feeder.modify r (·.put f v) }
  | .cond r f => { m with cond := m.cond.modify r (·.put f v) }
  | .shed r f => { m with shed := m.shed.modify r (·.put f v) }
  | .merit f => { m with merit := m.merit.put f v }

/-- The image of a function on the items. -/
def Image.ofFn (v : ItemName → Int) : Image where
  sys := Tab.ofFn fun f => v (.sys f)
  gen := Tab.ofFn fun r => Tab.ofFn fun f => v (.gen r f)
  plant := Tab.ofFn fun r => Tab.ofFn fun f => v (.plant r f)
  feeder := Tab.ofFn fun r => Tab.ofFn fun f => v (.feeder r f)
  cond := Tab.ofFn fun r => Tab.ofFn fun f => v (.cond r f)
  shed := Tab.ofFn fun r => Tab.ofFn fun f => v (.shed r f)
  merit := Tab.ofFn fun f => v (.merit f)

/-- Every item at its default (R163, R170). -/
def Image.defaults : Image := Image.ofFn ItemName.default

/-- A running scan (R163, R176). -/
structure Scan where
  start : Tick
  /-- Items read so far. -/
  position : Nat
  crc : BitVec 32
  deriving DecidableEq, Repr

/-- The Settings Store. -/
structure Sst where
  mode : Mode
  image : Image
  committed : Option (BitVec 32)
  settingsFault : Bool
  scan : Option Scan
  deriving DecidableEq, Repr

/-! ### HLC -/

/-- A complete host frame without its SYNC, length and CRC (R192). -/
structure HostFrame where
  kind : Byte
  tag : Byte
  body : List Byte
  deriving DecidableEq, Repr

/-- Notice kinds (R188, codes 0x40 to 0x48 of R192). -/
inductive NoticeKind where
  | accepted | completed | unit | feeder | plant | chain | blackstart | mode | alarm
  deriving DecidableEq, Repr

/-- A notice (R188): kind, tick at queuing, subject, 0 to 4 values as 32-bit fields. -/
structure Notice where
  kind : NoticeKind
  tick : Tick
  subject : Nat
  values : List Word
  deriving DecidableEq, Repr

/-- A host frame being assembled (R179). -/
structure PartialFrame where
  /-- The characters received, SYNC first. -/
  chars : List Byte
  /-- The tick at which the line has been idle for too long since the last of them (log entry 46). -/
  due : Tick
  deriving DecidableEq, Repr

/-- The Host Link Controller. -/
structure Hlc where
  /-- The frame being assembled; none while HLC hunts for SYNC (R179). -/
  partialFrame : Option PartialFrame
  /-- The receive buffer, oldest first (R180). -/
  slots : List HostFrame
  /-- The reply that waits for the transmitter (R183); its kind is the reply's kind. -/
  reply : Option HostFrame
  /-- The notice FIFO, oldest first (R188). -/
  notices : List Notice
  lost : Bool
  sequence : BitVec 8
  /-- The frame being transmitted: the bytes of the frame last begun (R183, R190). -/
  line : Option (List Byte)
  deriving DecidableEq, Repr

/-! ### Hand-overs -/

/-- The blocks that hand something over or take it. -/
inductive Block where
  | srx | ben | rsc | chu | gsd | fdc | bss | sst
  deriving DecidableEq, Repr

/-- What one block hands to another (R196). The receiving block takes each as an event of its own. -/
inductive Handover where
  /-- SRX or BEN to RSC: condition values taken together as one presentation (R57). -/
  | present (values : List (Fin 24 × Bool))
  /-- GSD, FDC or CHU to RSC: an event condition with its subject (R57). -/
  | raise (c : Fin 24) (subject : Nat)
  /-- A completion report to RSC by the block that ran the response (R71). -/
  | complete (reporter : Block) (c : Fin 24) (o : StepOutcome)
  /-- RSC examines acceptance (R66). -/
  | examine
  /-- RSC to CHU, GSD, FDC, BSS: start of a response for a condition (R69). -/
  | startResponse (c : Fin 24) (k : ResponseKind)
  /-- FDC or GSD to CHU: a unit of chain `n`'s step has ended, confirmed or failed (R91). -/
  | chainUnitEnd (n : Fin 6) (u : PlantUnit) (ok : Bool)
  /-- GSD to BSS: set `g` changed from one state to another (R151). -/
  | bssSetMoved (g : Fin 6) (old new : SetState)
  /-- GSD to BSS: a start with origin BLACKSTART has ended (R114). -/
  | bssStartEnd (g : Fin 6) (ok : Bool)
  /-- FDC to BSS: the clear has settled (R141). -/
  | bssSettled
  /-- FDC to BSS: a trip with origin BLACKSTART has ended (R129, R130). -/
  | bssTripEnd (f : Fin 16) (ok : Bool)
  /-- FDC to BSS: a close with origin BLACKSTART has ended (R130, R132). -/
  | bssCloseEnd (f : Fin 16) (ok : Bool)
  /-- BEN to BSS: a pass has ended (R153, R154). -/
  | bssPass
  /-- SRX to BSS: BUS_DEAD has become true (R157). -/
  | bssBusDead
  deriving DecidableEq, Repr

/-! ### The part -/

/-- The whole part. -/
structure State where
  /-- RESET_N is held low (R163). -/
  resetLow : Bool
  /-- The millisecond tick. -/
  tick : Tick
  /-- Code of the line rate the straps selected (R184). -/
  lineRate : Fin 4
  srx : Srx
  ben : Ben
  ctx : Ctx
  rsc : Rsc
  chains : Tab 6 Chain
  gsd : Gsd
  fdc : Fdc
  bss : Bss
  sst : Sst
  hlc : Hlc
  /-- Hand-overs made and not yet taken (R196; log entry 6). -/
  handovers : List Handover
  /-- The commands that wait, first in, first out. -/
  pending : List Instr
  deriving DecidableEq, Repr

/-- Why the part would stop. The manual gives no event that stops it, so there is no constructor. -/
inductive Fault
  deriving DecidableEq, Repr

/-- Why the model would give no meaning. -/
inductive Refusal where
  /-- Raised by an arm of `exec` whose command has no meaning yet; safe: nothing is claimed of it. -/
  | notModelled (mnemonic : String)
  deriving DecidableEq, Repr

/-! ### Values after power-on -/

/-- SRX after power-on and RESTART (R5). -/
def Srx.initial : Srx where
  heads := Tab.const 31 ⟨none, 0, 255, .stale⟩
  lastKind := .none
  busStamp := none
  silenceTimer := none
  deadTimer := none
  busSilent := false
  busDead := false
  stage := none

/-- BEN after power-on (R19). -/
def Ben.initial : Ben where
  ring := []
  aPrev := 0
  stableMs := 0
  passNumber := 0
  record := PassRecord.empty
  starts := []

/-- CTX after power-on (R44, R46, R48, R49, R50, R53). -/
def Ctx.initial : Ctx where
  plants := Tab.const 8 ⟨true, none, 0⟩
  waiting := Tab.const 8 none
  capPct := 100
  forcedZero := false
  refreshCount := 0
  silent := none
  fault := none
  line := none

/-- RSC after power-on and RESTART (R56). -/
def Rsc.initial : Rsc where
  rows := Tab.const 24 ⟨false, false, none, .idle, none⟩
  faultLatch := .idle
  active := Tab.const 7 none
  auto := false
  suppress := false

/-- A chain record after power-on (R78). -/
def Chain.initial : Chain where
  trigger := none
  kind := .shed
  list := none
  cursor := 0
  count := 0
  mode := .single
  stepSize := none
  flight := none
  revision := 0

/-- A set record after power-on, with no set installed and its inputs low (R97, R120; log entry 7). -/
def SetRec.initial : SetRec where
  state := .unavailable
  attempts := 0
  timer := none
  retry := false
  onlineSince := none
  minRunMet := false
  minRunTimer := none
  onlineMs := 0
  origin := none
  stopOwner := none
  runSeconds := 0
  accumulator := 0
  outOfService := false
  revision := 0
  running := false
  breaker := false
  ready := false

/-- A feeder record after power-on, with no feeder installed and its input low (R125, R143). -/
def FeederRec.initial : FeederRec where
  state := .outOfService
  origin := none
  timer := none
  preShed := none
  outOfService := false
  revision := 0
  breaker := false

/-- BSS after power-on (R146). -/
def Bss.initial : Bss where
  program := .idle
  phase := none
  restarts := 0
  tried := Tab.const 6 false
  holder := none
  firstSet := none
  awaited := none
  firstCloseTimer := none
  energizeTimer := none
  limitTimer := none
  settleTimer := none

/-- SST after power-on (R163). -/
def Sst.initial : Sst where
  mode := .setup
  image := Image.defaults
  committed := none
  settingsFault := false
  scan := none

/-- The MODE notice of power-on (R163, R169): old and new mode SETUP, cause POWER_ON, no levels. -/
def Notice.powerOn : Notice := ⟨.mode, 0, 0, [0, 0, 0, 0]⟩

/-- HLC after power-on (R190), with the MODE notice that SST queues (R163). -/
def Hlc.initial : Hlc where
  partialFrame := none
  slots := []
  reply := none
  notices := [Notice.powerOn]
  lost := false
  sequence := 0
  line := none

/-- The part after power-on, inputs low and both straps low (log entry 7). -/
def State.reset : State where
  resetLow := false
  tick := 0
  lineRate := 0
  srx := Srx.initial
  ben := Ben.initial
  ctx := Ctx.initial
  rsc := Rsc.initial
  chains := Tab.const 6 Chain.initial
  gsd := ⟨Tab.const 6 SetRec.initial, [], 0⟩
  fdc := ⟨Tab.const 16 FeederRec.initial, [], false, false⟩
  bss := Bss.initial
  sst := Sst.initial
  hlc := Hlc.initial
  handovers := []
  pending := []

end Sys2Proof.Machine
end

