-- ==== Sys2Proof/Machine/Formats.lean ====
section
/-!
DEFINITION. Byte order, the three CRCs and the layouts of frames, items and fields (chapter 11).
-/
namespace Sys2Proof.Machine

/-! ### Byte order (R191: high byte first) -/

/-- Two bytes, high byte first. -/
def bytes16 (x : BitVec 16) : List Byte := [x.extractLsb' 8 8, x.extractLsb' 0 8]

/-- Four bytes, high byte first. -/
def bytes32 (x : Word) : List Byte :=
  [x.extractLsb' 24 8, x.extractLsb' 16 8, x.extractLsb' 8 8, x.extractLsb' 0 8]

/-- The 16-bit number of two bytes. -/
def word16 (b1 b0 : Byte) : BitVec 16 := b1 ++ b0

/-- The 32-bit number of four bytes. -/
def word32 (b3 b2 b1 b0 : Byte) : Word := (b3 ++ b2 : BitVec 16) ++ (b1 ++ b0 : BitVec 16)

/-- One byte of a small number. -/
def byteOf (n : Nat) : Byte := BitVec.ofNat 8 n

/-! ### CRCs (R192, R194, R195) -/

/-- One input bit enters: exclusive-or with the register's top bit, shift left, apply the polynomial. -/
def crcBit {w : Nat} (poly reg : BitVec w) (b : Bool) : BitVec w :=
  if reg.msb != b then (reg <<< 1) ^^^ poly else reg <<< 1

/-- One byte enters most significant bit first. -/
def crcByte {w : Nat} (poly reg : BitVec w) (b : Byte) : BitVec w :=
  [7, 6, 5, 4, 3, 2, 1, 0].foldl (fun r k => crcBit poly r (b.getLsbD k)) reg

/-- The register after a run of bytes. -/
def crcRun {w : Nat} (poly init : BitVec w) (bs : List Byte) : BitVec w :=
  bs.foldl (crcByte poly) init

/-- The CRC-16 of host frames (R192). -/
def crc16 (bs : List Byte) : BitVec 16 := crcRun 0x1021 0xFFFF bs

/-- The CRC-8 of sample and ceiling frames (R194). -/
def crc8 (bs : List Byte) : Byte := crcRun 0x2F 0xFF bs

/-- Start value of the CRC-32 register (R195). -/
def crc32Init : Word := 0xFFFFFFFF

/-- The CRC-32 register after more bytes (R195). -/
def crc32Run (reg : Word) (bs : List Byte) : Word := crcRun 0x04C11DB7 reg bs

/-- The final step of the CRC-32 (R195). -/
def crc32Final (reg : Word) : Word := reg ^^^ 0xFFFFFFFF

/-! ### Fields of replies and notices (R191, R193) -/

/-- A 32-bit signed field. -/
def sField (v : Int) : Word := BitVec.ofInt 32 v

/-- An absent 32-bit signed field (R191). -/
def absentField : Word := 0x80000000

/-- A 32-bit signed field that may be absent. -/
def optField (v : Option Int) : Word := match v with | some x => sField x | none => absentField

/-- A two-valued field: yes and on of a setting are 1 (R195). DESIGN CHOICE: so are yes, set, true, running, high and
asserted of a live field in READ, STATUS and notices, for which R193 gives no code (log entry 55). -/
def boolInt (b : Bool) : Int := if b then 1 else 0

/-- The bytes of signed fields. -/
def sBytes (vs : List Int) : List Byte := vs.flatMap fun v => bytes32 (sField v)

/-- The bytes of one signed field that may be absent. -/
def optBytes (v : Option Int) : List Byte := bytes32 (optField v)

/-- An unsigned quantity that may be absent: a presence byte, then the field (R193). -/
def optUBytes (v : Option Word) : List Byte :=
  match v with | some x => 1 :: bytes32 x | none => 0 :: bytes32 0

/-- A collection given as a list: a count, then one field for each entry (R193). -/
def listBytes (vs : List Int) : List Byte := sBytes (Int.ofNat vs.length :: vs)

/-- A set of levels, sets or feeders: bit `n` stands for member `n` (R193). -/
def setField (members : List Nat) : Word := members.foldl (fun w n => w ||| (1 <<< n)) 0

/-! ### Codes (R193, R195) -/

def Judgement.code : Judgement → Int
  | .fresh => 0 | .stale => 1

def BusKind.code : BusKind → Nat
  | .none => 0 | .period => 1 | .dead => 2

def SetState.code : SetState → Int
  | .unavailable => 0 | .standby => 1 | .queued => 2 | .cranking => 3 | .runUp => 4
  | .online => 5 | .stopping => 6 | .rest => 7 | .lockout => 8

def FeederState.code : FeederState → Int
  | .closed => 0 | .tripping => 1 | .openShed => 2 | .openExt => 3 | .closing => 4
  | .failed => 5 | .outOfService => 6

def Latch.code : Latch → Int
  | .idle => 0 | .active => 1 | .activeAcked => 2 | .clearedUnacked => 3

def Mode.code : Mode → Int
  | .setup => 0 | .check => 1 | .run => 2 | .safe => 3

def Program.code : Program → Int
  | .idle => 0 | .clearing => 1 | .first => 2 | .energizing => 3 | .restoring => 4 | .failed => 5

def Phase.code : Phase → Int
  | .wait => 0 | .close => 1 | .settle => 2 | .start => 3

def StepOutcome.code : StepOutcome → Int
  | .done => 0 | .none => 1 | .failed => 2

def ResponseKind.code : ResponseKind → Int
  | .notice => 0 | .chains => 1 | .startNext => 2 | .stopNext => 3 | .restoreNext => 4
  | .blackStart => 5

def ChainKind.code : ChainKind → Int
  | .shed => 0 | .restore => 1 | .start => 2 | .stop => 3 | .capDown => 4 | .capUp => 5

def ChainMode.code : ChainMode → Int
  | .single => 0 | .burst => 1 | .count => 2

/-- An origin or stop owner: its code × 256 plus its number (R193). DESIGN CHOICE: BLACKSTART, HOST and MANUAL, to which
R97 and R125 give no number, add 0 (log entry 11). -/
def Origin.code : Origin → Int
  | .chain n => n.val
  | .response c => 256 + c.val
  | .blackstart => 512
  | .host => 768
  | .manual => 1024

def NoticeKind.code : NoticeKind → Byte
  | .accepted => 0x40 | .completed => 0x41 | .unit => 0x42 | .feeder => 0x43 | .plant => 0x44
  | .chain => 0x45 | .blackstart => 0x46 | .mode => 0x47 | .alarm => 0x48

/-- The number the manual gives a unit, counted from 1 (R2). -/
def PlantUnit.number : PlantUnit → Nat
  | .set g => g.val + 1
  | .feeder f => f.val + 1

/-! ### Frames -/

/-- A host frame on the line (R192). -/
def hostFrameBytes (f : HostFrame) : List Byte :=
  let covered := byteOf f.body.length :: f.kind :: f.tag :: f.body
  Config.syncByte :: covered ++ bytes16 (crc16 covered)

/-- A notice's body: lost flag, sequence, tick, subject, count of values, values (R193). -/
def noticeBody (lost : Bool) (seq : BitVec 8) (n : Notice) : List Byte :=
  [if lost then 1 else 0, seq] ++ bytes32 n.tick ++ [byteOf n.subject, byteOf n.values.length] ++
    n.values.flatMap bytes32

/-- A ceiling frame: 1100 and the plant number, the ceiling, CRC-8 (R194). -/
def ceilingFrameBytes (p : Fin 8) (ceiling : Int) : List Byte :=
  let covered := byteOf (0xC0 + (p.val + 1)) :: bytes16 (BitVec.ofInt 16 ceiling)
  covered ++ [crc8 covered]

/-- A sample frame that passes the checks of R3: what it says. -/
inductive Sample where
  /-- A PERIOD or DEAD frame of head 0. -/
  | bus (kind : BusKind) (stamp : Stamp) (value : Nat)
  /-- A POWER frame of head 1 to 30. -/
  | power (head : Fin 31) (stamp : Stamp) (value : Int)
  deriving DecidableEq, Repr

/-- The checks of R3 in order: length and framing (R194), CRC, head, kind. `none`: discarded. -/
def sampleOf (burst : List Byte) : Option Sample :=
  match burst with
  | [b0, b1, v2, v1, v0, c] =>
    if b0.msb && b1.toNat < 64 && crc8 [b0, b1, v2, v1, v0] = c then
      let head := b0.toNat % 32
      let stamp := b1.extractLsb' 0 6
      let raw : BitVec 24 := (v2 ++ v1 : BitVec 16) ++ v0
      if h : head < 31 then
        match b0.toNat / 32 % 4, decide (head = 0) with
        | 1, true => some (.bus .period stamp raw.toNat)
        | 2, true => some (.bus .dead stamp 0)
        | 3, false => some (.power ⟨head, h⟩ stamp raw.toInt)
        | _, _ => none
      else none
    else none
  | _ => none

/-- The sample frame of given fields, as a head sends it (R194). Kind codes: PERIOD 1, DEAD 2, POWER 3. -/
def sampleBytes (kind head : Nat) (stamp : Stamp) (value : Int) : List Byte :=
  let v := BitVec.ofInt 24 value
  let covered := [byteOf (128 + 32 * kind + head), stamp.setWidth 8, v.extractLsb' 16 8,
    v.extractLsb' 8 8, v.extractLsb' 0 8]
  covered ++ [crc8 covered]

/-! ### Settings items (R195) -/

/-- An item as a request carries it: codes, byte 3 and value. -/
structure RawItem where
  table : Nat
  row : Nat
  field : Nat
  pad : Nat
  value : Int
  deriving DecidableEq, Repr

/-- The item it names; byte 3 not 0 names none (R195). -/
def RawItem.name (r : RawItem) : Option ItemName :=
  if r.pad = 0 then itemOfCodes r.table r.row r.field else none

/-- The items of a body, eight bytes each; bytes short of an item are left out. -/
def rawItems : List Byte → List RawItem
  | t :: r :: f :: z :: b3 :: b2 :: b1 :: b0 :: rest =>
    ⟨t.toNat, r.toNat, f.toNat, z.toNat, (word32 b3 b2 b1 b0).toInt⟩ :: rawItems rest
  | _ => []

/-- The 8-byte form of an item (R195). -/
def itemBytes (k : ItemName) (v : Int) : List Byte :=
  let (t, r, f) := k.codes
  [byteOf t, byteOf r, byteOf f, 0] ++ bytes32 (sField v)

/-- The check over an image (R175, R195). -/
def checkOf (m : Image) : Word :=
  crc32Final (checkOrder.foldl (fun reg k => crc32Run reg (itemBytes k (m.get k))) crc32Init)

end Sys2Proof.Machine
end

