-- ==== Sys2Proof/Machine/Ops.lean ====
section
/-!
DEFINITION. The operations every block uses: time, notices, replies, reads of the settings, hand-overs,
and the lines the state drives.
-/
namespace Sys2Proof.Machine

/-! ### Settings reads (R170) -/

/-- An item as a block reads it: its default where the stored value lies outside its range (R170). -/
def State.setting (s : State) (k : ItemName) : Int :=
  let v := s.sst.image.get k
  if k.inRange v then v else k.default

/-- A SYS setting. -/
def State.sys (s : State) (f : Fin 38) : Int := s.setting (.sys f)

/-- A SYS setting that is a length or a count. -/
def State.sysNat (s : State) (f : Fin 38) : Nat := (s.sys f).toNat

def State.setInstalled (s : State) (g : Fin 6) : Bool := s.setting (.gen g 0) = 1
def State.setRated (s : State) (g : Fin 6) : Int := s.setting (.gen g 1)
def State.setFloorPct (s : State) (g : Fin 6) : Int := s.setting (.gen g 2)
def State.setCapable (s : State) (g : Fin 6) : Bool := s.setting (.gen g 3) = 1
def State.plantInstalled (s : State) (p : Fin 8) : Bool := s.setting (.plant p 0) = 1
def State.plantCapacity (s : State) (p : Fin 8) : Int := s.setting (.plant p 1)
/-- class FLEX (code 1, R195). -/
def State.plantFlex (s : State) (p : Fin 8) : Bool := s.setting (.plant p 2) = 1
def State.feederInstalled (s : State) (f : Fin 16) : Bool := s.setting (.feeder f 0) = 1
def State.feederEssential (s : State) (f : Fin 16) : Bool := s.setting (.feeder f 1) = 1
def State.feederRank (s : State) (f : Fin 16) : Int := s.setting (.feeder f 2)
def State.feederNominal (s : State) (f : Fin 16) : Int := s.setting (.feeder f 3)
def State.condEnabled (s : State) (c : Fin 24) : Bool := s.setting (.cond c 0) = 1
def State.condLevel (s : State) (c : Fin 24) : Nat := (s.setting (.cond c 1)).toNat
/-- mode HOLD (code 1, R195). -/
def State.condHold (s : State) (c : Fin 24) : Bool := s.setting (.cond c 2) = 1
def State.condHoldOff (s : State) (c : Fin 24) : Nat := (s.setting (.cond c 4)).toNat
/-- NONE 0, A 1, B 2 (R195). -/
def State.condRoute (s : State) (c : Fin 24) : Nat := (s.setting (.cond c 5)).toNat

/-- The response kind of a condition's row (R55, codes of R195). -/
def State.condKind (s : State) (c : Fin 24) : ResponseKind :=
  match (s.setting (.cond c 3)).toNat with
  | 1 => .chains
  | 2 => .startNext
  | 3 => .stopNext
  | 4 => .restoreNext
  | 5 => .blackStart
  | _ => .notice

/-- The choice a fallback setting codes: HOLD 0, ZERO 1, FULL 2 (R195). -/
def fallbackOf (v : Int) : Fallback :=
  if v = 0 then .hold else if v = 2 then .full else .zero

/-- The units that the entries of a list name. DESIGN CHOICE: an entry that reads 0, which only a storage fault brings
about within the length of a list (R170, R173), is left out, and the later ones move up (log entry 54). -/
def unitsOf (n : Nat) (vs : List Int) : List (Fin n) :=
  vs.filterMap fun v => if h : 1 ≤ v ∧ v.toNat - 1 < n then some ⟨v.toNat - 1, h.2⟩ else none

/-- A shed list in list order: entries 1 to length (R173), those that read 0 left out (log entry 54). -/
def State.shedList (s : State) (l : Fin 4) : List (Fin 16) :=
  unitsOf 16 (((List.finRange 17).tail.map fun f => s.setting (.shed l f)).take
    (s.setting (.shed l 0)).toNat)

/-- The merit list in list order: entries 1 to length (R173), those that read 0 left out (log entry 54). -/
def State.meritList (s : State) : List (Fin 6) :=
  unitsOf 6 (((List.finRange 7).tail.map fun f => s.setting (.merit f)).take
    (s.setting (.merit 0)).toNat)

/-! ### Heads (R2) -/

def setHead (g : Fin 6) : Fin 31 := ⟨g.val + 1, by omega⟩
def plantHead (p : Fin 8) : Fin 31 := ⟨p.val + 7, by omega⟩
def feederHead (f : Fin 16) : Fin 31 := ⟨f.val + 15, by omega⟩

/-- Whether a unit head belongs to an installed unit (1.2). Head 0 belongs to none. -/
def State.headInstalled (s : State) (h : Fin 31) : Bool :=
  if h.val = 0 then false
  else if hs : h.val - 1 < 6 then s.setInstalled ⟨h.val - 1, hs⟩
  else if hp : h.val - 7 < 8 then s.plantInstalled ⟨h.val - 7, hp⟩
  else s.feederInstalled ⟨h.val - 15, by omega⟩

/-! ### Time -/

/-- The due tick of a timer of `ms` milliseconds started now. -/
def State.dueIn (s : State) (ms : Nat) : Tick := s.tick + BitVec.ofNat 32 ms

/-- Milliseconds until a due tick, 0 when it has been reached, modulo the wrap of the tick (R197). -/
def State.remaining (s : State) (due : Tick) : Nat :=
  let d := (due - s.tick).toNat
  if d < 2 ^ 31 then d else 0

/-- A set runs for `d` milliseconds: each time its accumulator reaches 1,000 ms it returns to 0 and the run seconds
rise by one (R112), which is a change of the row (R97). -/
def SetRec.ran (d : Nat) (r : SetRec) : SetRec :=
  let ms := r.accumulator + d
  { r with
    accumulator := ms % 1000
    runSeconds := r.runSeconds + BitVec.ofNat 32 (ms / 1000)
    revision := r.revision + BitVec.ofNat 16 (ms / 1000) }

/-- A set lets `d` milliseconds pass: in ONLINE the time since online-since counts, up to the greatest min_run
(DESIGN CHOICE, log entry 39). -/
def SetRec.stood (d : Nat) (r : SetRec) : SetRec :=
  { r with onlineMs := if r.state = .online then min Config.minRunLimitMs (r.onlineMs + d) else r.onlineMs }

/-- `d` milliseconds pass: the tick, the stable-since timer (R36), the time of each set in ONLINE (log entry 39), and
the accumulator and run seconds of each installed set whose RUNNING is high (R112; log entry 40). -/
def advance (d : Nat) (s : State) : State :=
  { s with
    tick := s.tick + BitVec.ofNat 32 d
    ben.stableMs := min Config.stableLimit (s.ben.stableMs + d)
    gsd.sets := s.gsd.sets.mapIdx fun g r =>
      (if r.running && s.setInstalled g then r.ran d else r).stood d }

/-- Time passes until a due tick that has not been reached (log entry 2). -/
def advanceTo (due : Tick) (s : State) : State :=
  if s.remaining due = 0 then s else advance (s.remaining due) s

/-- The expiry of a timer: nothing while it is idle; otherwise its due time comes and `f` acts. -/
def expire (timer : Option Tick) (f : State → State) (s : State) : State :=
  match timer with
  | none => s
  | some due => f (advanceTo due s)

/-! ### Notices (R188) -/

/-- A notice joins the FIFO, or is dropped with the lost flag set when the FIFO is full (R188). -/
def notify (k : NoticeKind) (subject : Nat) (values : List Word) (s : State) : State :=
  if s.hlc.notices.length < Config.noticeCapacity then
    { s with hlc.notices := s.hlc.notices ++ [⟨k, s.tick, subject, values⟩] }
  else { s with hlc.lost := true }

/-! ### Hand-overs (R196) -/

/-- A block hands something to another block. -/
def emit (m : Handover) (s : State) : State := { s with handovers := s.handovers ++ [m] }

/-! ### Rows -/

def State.setRec (s : State) (g : Fin 6) : SetRec := s.gsd.sets.get g
def State.feederRec (s : State) (f : Fin 16) : FeederRec := s.fdc.feeders.get f
def State.plantRow (s : State) (p : Fin 8) : Plant := s.ctx.plants.get p
def State.condRow (s : State) (c : Fin 24) : CondRow := s.rsc.rows.get c
def State.chain (s : State) (n : Fin 6) : Chain := s.chains.get n

def modSet (g : Fin 6) (f : SetRec → SetRec) (s : State) : State :=
  { s with gsd.sets := s.gsd.sets.modify g f }
def modFeeder (i : Fin 16) (f : FeederRec → FeederRec) (s : State) : State :=
  { s with fdc.feeders := s.fdc.feeders.modify i f }
def modPlant (p : Fin 8) (f : Plant → Plant) (s : State) : State :=
  { s with ctx.plants := s.ctx.plants.modify p f }
def modCond (c : Fin 24) (f : CondRow → CondRow) (s : State) : State :=
  { s with rsc.rows := s.rsc.rows.modify c f }
def modChain (n : Fin 6) (f : Chain → Chain) (s : State) : State :=
  { s with chains := s.chains.modify n f }

/-- `f` for each index in ascending number. -/
def forAll (n : Nat) (f : Fin n → State → State) (s : State) : State :=
  (List.finRange n).foldl (fun s i => f i s) s

/-- The part is in RUN. -/
def State.inRun (s : State) : Bool := s.sst.mode = .run

/-! ### Lines the part drives (R98, R126, R151, R76; none while RESET_N is low, R163) -/

/-- START is asserted for an installed set in CRANKING alone (R96, R98). -/
def State.startLine (s : State) (g : Fin 6) : Bool :=
  !s.resetLow && s.setInstalled g && (s.setRec g).state = .cranking

/-- STOP is asserted for an installed set in STOPPING alone (R96, R98). -/
def State.stopLine (s : State) (g : Fin 6) : Bool :=
  !s.resetLow && s.setInstalled g && (s.setRec g).state = .stopping

def State.deadbusLine (s : State) (g : Fin 6) : Bool := !s.resetLow && s.bss.holder = some g
def State.tripLine (s : State) (f : Fin 16) : Bool :=
  !s.resetLow && (s.feederRec f).state = .tripping
def State.closeLine (s : State) (f : Fin 16) : Bool :=
  !s.resetLow && (s.feederRec f).state = .closing

/-- ALARM_A is asserted while a latch routed to A is not IDLE; SETTINGS_FAULT is routed to A (R76). -/
def State.alarmA (s : State) : Bool :=
  !s.resetLow && (s.rsc.faultLatch != .idle ||
    (List.finRange 24).any fun c => s.condRoute c = 1 && (s.condRow c).latch != .idle)

/-- ALARM_B, in the same way for the latches routed to B (R76). -/
def State.alarmB (s : State) : Bool :=
  !s.resetLow && (List.finRange 24).any fun c => s.condRoute c = 2 && (s.condRow c).latch != .idle

/-! ### Replies (R181, R183) -/

/-- Reply statuses (R181, codes of R193). -/
inductive Status where
  | ok | unknown | length | mode | range | notTunable | checkMismatch | staleRevision | state | busy
  | notInstalled
  deriving DecidableEq, Repr

def Status.code : Status → Byte
  | .ok => 0 | .unknown => 1 | .length => 2 | .mode => 3 | .range => 4 | .notTunable => 5
  | .checkMismatch => 6 | .staleRevision => 7 | .state => 8 | .busy => 9 | .notInstalled => 10

/-- A reply is formed and waits for the transmitter: the request's kind with bit 7 set, its tag, the
status and the values (R181, R192, R193). -/
def answer (kind tag : Byte) (st : Status) (values : List Byte) (s : State) : State :=
  { s with hlc.reply := some ⟨kind ||| 0x80, tag, st.code :: values⟩ }

/-- A refusal with STALE_REVISION carries the row's revision (R182, R193). -/
def answerStale (kind tag : Byte) (rev : Revision) (s : State) : State :=
  answer kind tag .staleRevision (bytes16 rev) s

/-- The transmitter begins the reply that waits, if one does (R183). -/
def sendReply (s : State) : State :=
  match s.hlc.reply with
  | none => s
  | some r => { s with hlc.reply := none, hlc.line := some (hostFrameBytes r) }

end Sys2Proof.Machine
end

