-- ==== Sys2Proof/Machine/Ctx.lean ====
section
/-!
DEFINITION. The Ceiling Transmitter: the pending set, the deadband test and the refresh, cap percent,
forced-zero and the two fallbacks (R44 to R53).
-/
namespace Sys2Proof.Machine

/-- A ceiling is made pending for a plant, replacing one that waits; 0 while forced-zero is set (R46). -/
def makePending (p : Fin 8) (c : Int) (s : State) : State :=
  { s with ctx.waiting := s.ctx.waiting.put p (some (if s.ctx.forcedZero then 0 else c)) }

/-- The pending set is emptied (R52, R53). -/
def emptyPending (s : State) : State := { s with ctx.waiting := Tab.const 8 none }

/-- The PLANT notice with subject 0: kind of change and new value (R49 to R51, codes of R193; forced-zero set is 1, log
entry 55). -/
def notifyChange (change : Int) (v : Int) (s : State) : State :=
  notify .plant 0 [sField change, sField v] s

/-- A clamp takes the nearer bound (R1). -/
def clamp (lo hi v : Int) : Int := max lo (min hi v)

/-- A CAP step moves cap_pct, clamped to 0 to 100; a change queues a PLANT notice (R49). -/
def moveCap (delta : Int) (s : State) : State :=
  let new := clamp 0 100 (s.ctx.capPct + delta)
  if new = s.ctx.capPct then s else notifyChange 0 new { s with ctx.capPct := new }

/-- Forced-zero is set: waiting ceilings become 0, and 0 is made pending for each installed plant whose
last ceiling sent is absent or above 0 (R50). Set a second time, nothing further happens (R148). -/
def setForcedZero (s : State) : State :=
  if s.ctx.forcedZero then s
  else
    let waiting := s.ctx.waiting.mapIdx fun p w =>
      match w with
      | some _ => some 0
      | none =>
        if s.plantInstalled p && (match (s.plantRow p).lastSent with | none => true | some l => 0 < l)
        then some 0 else none
    notifyChange 1 1 { s with ctx.forcedZero := true, ctx.waiting := waiting }

/-- Forced-zero is cleared; nothing is made pending (R50). -/
def clearForcedZero (s : State) : State :=
  if s.ctx.forcedZero then notifyChange 1 0 { s with ctx.forcedZero := false } else s

/-- Forced-zero is cleared and A_prev set to 0, together (R19, R50). -/
def liftForcedZero (s : State) : State :=
  let s := clearForcedZero s
  { s with ben.aPrev := 0 }

/-- What a fallback makes pending at its beginning and at each of its ticks (R51, R52). -/
def fallbackFill (choice : Fallback) (s : State) : State :=
  match choice with
  | .hold => s
  | .zero => forAll 8 (fun p s => if s.plantInstalled p then makePending p 0 s else s) s
  | .full =>
    forAll 8 (fun p s =>
      if s.plantInstalled p then
        makePending p (if (s.plantRow p).inService then s.plantCapacity p else 0) s
      else s) s

/-- The BUS_SILENT fallback begins, in RUN while BUS_SILENT is true (R51). -/
def beginSilent (s : State) : State :=
  if s.inRun && s.srx.busSilent && s.ctx.silent.isNone then
    let choice := fallbackOf (s.sys Sys.silentFallback)
    let s := { s with ctx.silent := some ⟨choice, s.dueIn Config.silentTickMs⟩ }
    fallbackFill choice (notifyChange 2 1 s)
  else s

/-- The BUS_SILENT fallback ends and its tick stops (R51). -/
def endSilent (s : State) : State :=
  if s.ctx.silent.isSome then notifyChange 2 0 { s with ctx.silent := none } else s

/-- The entry to SAFE: the pending set is emptied, then fault_fallback acts (R52). -/
def beginFault (s : State) : State :=
  let choice := fallbackOf (s.sys Sys.faultFallback)
  let s := emptyPending s
  fallbackFill choice { s with ctx.fault := some ⟨choice, s.dueIn Config.faultTickMs⟩ }

/-- A tick of the BUS_SILENT fallback: the same is made pending again (R51). -/
def silentTick (run : FallbackRun) (s : State) : State :=
  fallbackFill run.choice
    { s with ctx.silent := some { run with due := run.due + BitVec.ofNat 32 Config.silentTickMs } }

/-- A tick of the SETTINGS_FAULT fallback (R52). -/
def faultTick (run : FallbackRun) (s : State) : State :=
  fallbackFill run.choice
    { s with ctx.fault := some { run with due := run.due + BitVec.ofNat 32 Config.faultTickMs } }

/-- The deadband test of R47 against the last ceiling sent. -/
def ceilingMoves (deadband : Int) (last : Option Int) (c : Int) : Bool :=
  match last with
  | none => true
  | some l => c < l || (l < c && deadband ≤ c - l)

/-- CTX takes the ceilings of a pass in RUN: the refresh count advances, and each installed plant's ceiling is made
pending at a refresh (R48), or by the deadband test while no fallback stands (R47; log entry 21). -/
def takeCeilings (cs : Tab 8 (Option Int)) (s : State) : State :=
  if s.inRun then
    let count := s.ctx.refreshCount + 1
    let refresh := decide (s.sysNat Sys.refreshPasses ≤ count)
    let compares := s.ctx.silent.isNone && s.ctx.fault.isNone
    let s := { s with ctx.refreshCount := if refresh then 0 else count }
    forAll 8 (fun p s =>
      match cs.get p with
      | none => s
      | some c =>
        if s.plantInstalled p &&
            (refresh ||
              compares && ceilingMoves (s.sys Sys.ceilingDeadband) (s.plantRow p).lastSent c) then
          makePending p c s
        else s) s
  else s

/-- The lowest-numbered plant whose ceiling waits. -/
def State.nextCeiling (s : State) : Option (Fin 8) :=
  (List.finRange 8).find? fun p => (s.ctx.waiting.get p).isSome

/-- The setpoint link starts the frame of a waiting ceiling, which becomes the plant's last ceiling sent;
the row's revision is incremented (R46; log entry 17). -/
def startCeiling (p : Fin 8) (c : Int) (s : State) : State :=
  let s := { s with ctx.waiting := s.ctx.waiting.put p none, ctx.line := some (ceilingFrameBytes p c) }
  modPlant p (fun r => { r with lastSent := some c, revision := r.revision + 1 }) s

/-- A WRITE changed a plant's row: its revision is incremented once, and a row set not installed returns to
in service with no last ceiling (R44). `uninstalled`: the WRITE set installed to no. DESIGN CHOICE: this return to
service queues no PLANT notice, which R45 names for the PLANT request alone (log entry 38). -/
def plantWritten (p : Fin 8) (uninstalled : Bool) (s : State) : State :=
  modPlant p (fun r =>
    if uninstalled then ⟨true, none, r.revision + 1⟩ else { r with revision := r.revision + 1 }) s

end Sys2Proof.Machine
end

