-- ==== Sys2Proof/Machine/Fdc.lean ====
section
/-!
DEFINITION. The Feeder Controller: the one operation that moves a feeder between states, trips and closes
with their reports, the restore queue, the clear and the rebuild, and the mapping (R125 to R144).
-/
namespace Sys2Proof.Machine

/-! ### Moving a feeder -/

/-- The breaker timer a state starts, in RUN (R126). -/
def State.feederTimerFor (s : State) (st : FeederState) : Option Tick :=
  if s.inRun && (st = .tripping || st = .closing) then some (s.dueIn (s.sysNat Sys.breakerTime)) else none

/-- A row as it enters a state; CLOSED makes the pre-shed load absent (R126, R136). -/
def State.enterFeeder (s : State) (st : FeederState) (r : FeederRec) : FeederRec :=
  { r with
    state := st
    timer := s.feederTimerFor st
    preShed := if st = .closed then none else r.preShed }

/-- The restore queue as a feeder moves: OPEN_SHED is the queue; a feeder joins at the head (R135). -/
def queuePlace (f : Fin 16) (old new : FeederState) (q : List (Fin 16)) : List (Fin 16) :=
  let q := if old = .openShed then q.erase f else q
  if new = .openShed then f :: q else q

/-- The FEEDER notice of a feeder (R127). -/
def notifyFeeder (f : Fin 16) (s : State) : State :=
  let r := s.feederRec f
  notify .feeder (f.val + 1)
    [sField r.state.code, optField (r.origin.map Origin.code), optField r.preShed,
      sField (boolInt r.outOfService)] s

/-- A feeder moves to another state, with all that R126, R127 and R135 tie to the change. Moving to the
state it is in changes nothing. -/
def moveFeeder (f : Fin 16) (new : FeederState) (s : State) : State :=
  let old := (s.feederRec f).state
  if old = new then s
  else
    let s := { s with fdc.queue := queuePlace f old new s.fdc.queue }
    notifyFeeder f (modFeeder f (s.enterFeeder new) s)

/-! ### Revisions -/

/-- The fields whose change changes the revision (R125). -/
def FeederRec.sameRow (a b : FeederRec) : Bool :=
  a.state = b.state && a.origin = b.origin && a.preShed = b.preShed && a.outOfService = b.outOfService

/-- Feeders in ascending number, the order in which one event that changes several of them works (R127). A feeder named
twice, which only a storage fault brings about, stands there once (log entry 54). -/
def ascending (fs : List (Fin 16)) : List (Fin 16) := (List.finRange 16).filter fun f => decide (f ∈ fs)

/-- One event at FDC: a row that it changed has its revision incremented once (R125; log entry 17). -/
def fdcEvent (f : State → State) (s : State) : State :=
  let t := f s
  { t with fdc.feeders := t.fdc.feeders.mapIdx fun i r =>
      if (s.feederRec i).sameRow r then r else { r with revision := r.revision + 1 } }

/-! ### Need (R136) -/

/-- The need of a feeder: its pre-shed load when present, else its nominal_load. -/
def State.need (s : State) (f : Fin 16) : Int :=
  match (s.feederRec f).preShed with
  | some l => l
  | none => s.feederNominal f

/-- H of the latest pass record, 0 when it holds none (R86, R137). -/
def State.headroom (s : State) : Int := s.ben.record.h.getD 0

/-- The headroom test of a restoration (R86, R137). -/
def State.fits (s : State) (f : Fin 16) (h : Int) : Bool :=
  s.need f + s.sys Sys.restoreMargin ≤ h

/-! ### Reports -/

/-- The end of a trip goes to its origin: CHU for a chain, BSS for the clearing (R129, R130). -/
def reportTrip (o : Option Origin) (f : Fin 16) (ok : Bool) (s : State) : State :=
  match o with
  | some (.chain n) => emit (.chainUnitEnd n (.feeder f) ok) s
  | some .blackstart => emit (.bssTripEnd f ok) s
  | _ => s

/-- The end of a close goes to its origin: CHU, RSC or BSS (R130, R132). -/
def reportClose (o : Option Origin) (f : Fin 16) (ok : Bool) (s : State) : State :=
  match o with
  | some (.chain n) => emit (.chainUnitEnd n (.feeder f) ok) s
  | some (.response c) => emit (.complete .fdc c (if ok then .done else .failed)) s
  | some .blackstart => emit (.bssCloseEnd f ok) s
  | _ => s

/-! ### Trips and closes -/

/-- The pre-shed load recorded at a trip: the fresh head value, not below 0 (R128). -/
def State.shedLoad (s : State) (f : Fin 16) : Option Int :=
  let e := s.srx.heads.get (feederHead f)
  if e.judgement = .fresh then e.value.map (max 0) else none

/-- FDC begins the trip of a CLOSED feeder (R128). -/
def beginTrip (f : Fin 16) (o : Origin) (s : State) : State :=
  let load := s.shedLoad f
  moveFeeder f .tripping (modFeeder f (fun r => { r with origin := some o, preShed := load }) s)

/-- A trip request (R128): taken in RUN for a CLOSED feeder; a chain's request for another is reported
failed at once. -/
def tripFeeder (f : Fin 16) (o : Origin) (s : State) : State :=
  if s.inRun && (s.feederRec f).state = .closed then fdcEvent (beginTrip f o) s
  else
    match o with
    | .chain n => emit (.chainUnitEnd n (.feeder f) false) s
    | _ => s

/-- A close request (R131): taken in RUN for a feeder in OPEN_SHED or OPEN_EXT; otherwise the end is
reported as failed at once. -/
def closeFeeder (f : Fin 16) (o : Origin) (s : State) : State :=
  if s.inRun && ((s.feederRec f).state = .openShed || (s.feederRec f).state = .openExt) then
    fdcEvent (fun s => moveFeeder f .closing (modFeeder f (fun r => { r with origin := some o }) s)) s
  else reportClose (some o) f false s

/-- The clear is settled at the first event at which no installed feeder is in TRIPPING or CLOSING; the
settlement is reported to BSS once (R141). -/
def settleClear (s : State) : State :=
  if s.fdc.settleOwed && (List.finRange 16).all fun f =>
      !s.feederInstalled f ||
        ((s.feederRec f).state != .tripping && (s.feederRec f).state != .closing) then
    emit .bssSettled { s with fdc.settleOwed := false }
  else s

/-- While the clear flag is set, a feeder that has become CLOSED is tripped within the same event (R141). -/
def tripIfClearing (f : Fin 16) (s : State) : State :=
  if s.fdc.clearFlag && (s.feederRec f).state = .closed && s.inRun then beginTrip f .blackstart s else s

/-- RESTORE_NEXT for an accepted condition (R137). -/
def restoreNext (c : Fin 24) (s : State) : State :=
  match s.fdc.queue with
  | [] => emit (.complete .fdc c .none) s
  | f :: _ =>
    if s.fits f s.headroom then closeFeeder f (.response c) s else emit (.complete .fdc c .none) s

/-! ### Input and timer events in RUN -/

/-- A confirmed trip: OPEN_SHED for a chain or the clearing, OPEN_EXT for the host; the origin becomes
absent and is told (R129). -/
def confirmTrip (f : Fin 16) (s : State) : State :=
  let o := (s.feederRec f).origin
  let new := match o with
    | some (.chain _) => FeederState.openShed
    | some .blackstart => .openShed
    | _ => .openExt
  reportTrip o f true (modFeeder f (fun r => { r with origin := none }) (moveFeeder f new s))

/-- A confirmed close: CLOSED; the origin becomes absent and is told (R132). -/
def confirmClose (f : Fin 16) (s : State) : State :=
  let o := (s.feederRec f).origin
  reportClose o f true (modFeeder f (fun r => { r with origin := none }) (moveFeeder f .closed s))

/-- BREAKER falls, in RUN (R129, R133). DESIGN CHOICE: where the confirmation of a trip also settles the clear, the end
of the trip is reported to its origin before the settlement is reported to BSS (R129, R141; log entry 43). -/
def feederFallen (f : Fin 16) (s : State) : State :=
  match (s.feederRec f).state with
  | .tripping => settleClear (confirmTrip f s)
  | .closed => settleClear (moveFeeder f .openExt s)
  | .failed => settleClear (moveFeeder f .openExt s)
  | .openShed => s
  | .openExt => s
  | .closing => s
  | .outOfService => s

/-- BREAKER rises, in RUN (R132, R133), with the trip of R141 while the clear flag is set. -/
def feederRisen (f : Fin 16) (s : State) : State :=
  match (s.feederRec f).state with
  | .closing => settleClear (tripIfClearing f (confirmClose f s))
  | .openShed => settleClear (tripIfClearing f (moveFeeder f .closed s))
  | .openExt => settleClear (tripIfClearing f (moveFeeder f .closed s))
  | .failed => settleClear (tripIfClearing f (moveFeeder f .closed s))
  | .closed => s
  | .tripping => s
  | .outOfService => s

/-- The breaker timer of a feeder in TRIPPING or CLOSING expires: FAILED, the end reported, FEEDER_FAIL
(C8) raised (R130). DESIGN CHOICE: the report and the raise are handed over before a settlement of the clear that the
same expiry brings (R141; log entry 43). -/
def breakerExpired (f : Fin 16) (s : State) : State :=
  let r := s.feederRec f
  let s := modFeeder f (fun r => { r with origin := none }) (moveFeeder f .failed s)
  let s := if r.state = .tripping then reportTrip r.origin f false s else reportClose r.origin f false s
  settleClear (emit (.raise 8 (f.val + 1)) s)

/-! ### The mapping (R143) -/

/-- The state the mapping gives. -/
def State.mappedFeeder (s : State) (f : Fin 16) : FeederState :=
  let r := s.feederRec f
  if !s.feederInstalled f || r.outOfService then .outOfService
  else if r.breaker then .closed
  else .openExt

/-- The feeder moves to the state the mapping gives; CLOSED makes the pre-shed load absent. -/
def mapFeeder (f : Fin 16) (s : State) : State :=
  let s := moveFeeder f (s.mappedFeeder f) s
  if (s.feederRec f).state = .closed then modFeeder f (fun r => { r with preShed := none }) s else s

/-- At ENGAGE the mapping is applied once to every feeder; the restore queue is empty (R143). -/
def fdcEngage (s : State) : State := fdcEvent (forAll 16 mapFeeder) s

/-- The restore queue is emptied (R144). -/
def dropRestoreQueue (s : State) : State := { s with fdc.queue := [] }

/-- Timers stop, origins become absent and the clear flag is cleared (R144). -/
def releaseFeeders (s : State) : State :=
  { s with
    fdc.feeders := s.fdc.feeders.mapIdx fun _ r => { r with origin := none, timer := none }
    fdc.clearFlag := false
    fdc.settleOwed := false }

/-- DISENGAGE, SAFE and RESTART end every breaker operation in flight: the four items of R144. -/
def fdcAbandon (s : State) : State :=
  fdcEvent (fun s => dropRestoreQueue (forAll 16 mapFeeder (releaseFeeders (dropRestoreQueue s)))) s

/-! ### Service to the black start program -/

/-- The clear action (R141). -/
def clearBus (s : State) : State :=
  let s := { s with fdc.clearFlag := true, fdc.settleOwed := true }
  settleClear (forAll 16 (fun f s =>
    if (s.feederRec f).state = .closed then tripFeeder f .blackstart s else s) s)

/-- Insertion into a list of feeders in ascending restore_rank, ties in ascending number (R142). -/
def State.insertRanked (s : State) (f : Fin 16) : List (Fin 16) → List (Fin 16)
  | [] => [f]
  | g :: rest =>
    if s.feederRank f < s.feederRank g ∨ (s.feederRank f = s.feederRank g ∧ f ≤ g) then f :: g :: rest
    else g :: s.insertRanked f rest

/-- The feeders of the rebuilt queue: installed, in service, OPEN_SHED or OPEN_EXT, ranked (R142). DESIGN CHOICE: a feeder
in OPEN_SHED that a storage fault makes read not installed (R170) is left out, as R142 says, and stays OPEN_SHED outside
the queue, against R135 (log entry 63). -/
def State.rebuiltQueue (s : State) : List (Fin 16) :=
  ((List.finRange 16).filter fun f =>
    s.feederInstalled f && !(s.feederRec f).outOfService &&
      ((s.feederRec f).state = .openShed || (s.feederRec f).state = .openExt)).foldr s.insertRanked []

/-- The marker REBUILD of the FEEDER notice (R193). -/
def rebuildMarker : Word := 0x5242

/-- The rebuild action (R142), with its notices (R127). -/
def rebuildQueue (s : State) : State :=
  fdcEvent (fun s =>
    let q := s.rebuiltQueue
    let s := { s with fdc.clearFlag := false }
    let s := forAll 16 (fun f s =>
      if f ∈ q then moveFeeder f .openShed s else s) s
    let s := { s with fdc.queue := q }
    notify .feeder 0 [rebuildMarker, sField q.length] s) s

end Sys2Proof.Machine
end

