-- ==== Sys2Proof/Machine/Gsd.lean ====
section
/-!
DEFINITION. The Set Dispatcher: the one operation that moves a set between states, the crank queue and
permits, starts and stops with their reports, selection and the mapping (R97 to R122).
-/
namespace Sys2Proof.Machine

/-! ### Moving a set -/

/-- The timer a state starts, in RUN (R98). -/
def State.setTimerFor (s : State) (st : SetState) : Option Tick :=
  if s.inRun then
    match st with
    | .cranking => some (s.dueIn (s.sysNat Sys.crankTime))
    | .runUp => some (s.dueIn (s.sysNat Sys.syncTime))
    | .stopping => some (s.dueIn (s.sysNat Sys.stopTime))
    | .rest => some (s.dueIn (s.sysNat Sys.restTime))
    | _ => none
  else none

/-- A row as it enters a state: its timer, and in ONLINE online-since, attempts 0 and the min-run timer;
outside ONLINE those are absent (R98, R105). min_run is read here for the timer, as it starts, and by each stop selection
again (R96; `State.minRunServed`). DESIGN CHOICE: attempts becomes 0 before the UNIT notice of ONLINE is queued, which
carries 0 (R99, R105; log entry 58). -/
def State.enterSet (s : State) (st : SetState) (r : SetRec) : SetRec :=
  let r := { r with state := st, timer := s.setTimerFor st }
  if st = .online then
    let ms := s.sysNat Sys.minRun * 1000
    { r with
      attempts := 0
      onlineSince := some s.tick
      minRunMet := ms = 0
      minRunTimer := if ms = 0 then none else some (s.dueIn ms)
      onlineMs := 0 }
  else { r with onlineSince := none, minRunMet := false, minRunTimer := none, onlineMs := 0 }

/-- The crank queue and the permits as a set moves: QUEUED is the queue, CRANKING holds a permit (R100). -/
def crankPlace (g : Fin 6) (old new : SetState) (d : Gsd) : Gsd :=
  let q := if old = .queued then d.queue.erase g else d.queue
  { d with
    queue := if new = .queued then q ++ [g] else q
    permits := (d.permits - if old = .cranking then 1 else 0) + if new = .cranking then 1 else 0 }

/-- The marker SET of the UNIT notice (R193). -/
def setMarker : Word := 0x5345

/-- The UNIT notice of a set (R99). -/
def notifySet (g : Fin 6) (s : State) : State :=
  let r := s.setRec g
  notify .unit (g.val + 1)
    [setMarker, sField r.state.code, sField r.attempts, sField (boolInt r.outOfService)] s

/-- GSD tells BSS of a change of a set's state while the program runs (R151). -/
def tellBss (g : Fin 6) (old new : SetState) (s : State) : State :=
  if s.inRun && s.bss.program != .idle then emit (.bssSetMoved g old new) s else s

/-- The report of the end of a start to its origin (R114). -/
def reportStart (o : Origin) (g : Fin 6) (ok : Bool) (s : State) : State :=
  match o with
  | .response c => emit (.complete .gsd c (if ok then .done else .failed)) s
  | .chain n => emit (.chainUnitEnd n (.set g) ok) s
  | .blackstart => emit (.bssStartEnd g ok) s
  | .manual => s
  | .host => s

/-- The states that end a start: ONLINE as succeeded, the other three as failed (R114). -/
def endsStart (st : SetState) : Bool :=
  st = .online || st = .lockout || st = .unavailable || st = .standby

/-- The start of a set with an origin ends when the set enters such a state (R114). -/
def endStart (g : Fin 6) (st : SetState) (s : State) : State :=
  match (s.setRec g).origin with
  | none => s
  | some o =>
    if endsStart st then reportStart o g (st = .online) (modSet g (fun r => { r with origin := none }) s)
    else s

/-- The report of the end of a stop to its owner: DONE to RSC, the new state to CHU (R91, R116). -/
def reportStop (o : Origin) (g : Fin 6) (st : SetState) (s : State) : State :=
  match o with
  | .response c => emit (.complete .gsd c .done) s
  | .chain n => emit (.chainUnitEnd n (.set g) (st != .lockout)) s
  | .blackstart => s
  | .manual => s
  | .host => s

/-- A set with a stop owner leaves STOPPING: the owner becomes absent and is told (R116). -/
def endStop (g : Fin 6) (old st : SetState) (s : State) : State :=
  match (s.setRec g).stopOwner with
  | none => s
  | some o =>
    if old = .stopping then reportStop o g st (modSet g (fun r => { r with stopOwner := none }) s) else s

/-- A set moves to another state, with all that R98, R99, R100, R114 and R116 tie to the change. Moving to
the state it is in changes nothing. DESIGN CHOICE: the UNIT notice carries the attempts as the move leaves them (R99;
log entry 58). DESIGN CHOICE: BSS is told of the change (R151) before the end of a start or a stop that it brings is
reported to RSC or CHU (R114, R116, R196; log entry 62). -/
def moveSet (g : Fin 6) (new : SetState) (s : State) : State :=
  let old := (s.setRec g).state
  if old = new then s
  else
    let s := { s with gsd := crankPlace g old new s.gsd }
    let s := modSet g (s.enterSet new) s
    let s := tellBss g old new (notifySet g s)
    endStop g old new (endStart g new s)

/-! ### Revisions -/

/-- The fields whose change changes the revision (R97). -/
def SetRec.sameRow (a b : SetRec) : Bool :=
  a.state = b.state && a.attempts = b.attempts && a.retry = b.retry &&
    a.onlineSince = b.onlineSince && a.minRunMet = b.minRunMet && a.origin = b.origin &&
    a.stopOwner = b.stopOwner && a.outOfService = b.outOfService && a.runSeconds = b.runSeconds

/-- One event at GSD: a row that it changed has its revision incremented once (R97; log entry 17). -/
def gsdEvent (f : State → State) (s : State) : State :=
  let t := f s
  { t with gsd.sets := t.gsd.sets.mapIdx fun g r =>
      if (s.setRec g).sameRow r then r else { r with revision := r.revision + 1 } }

/-! ### Queue, starts and stops -/

/-- Serving: while a permit is free, the set at the head of the queue is cranked (R100). `n` bounds the
number served. -/
def serveUpTo : Nat → State → State
  | 0, s => s
  | n + 1, s =>
    match s.gsd.queue with
    | [] => s
    | g :: _ =>
      if s.gsd.permits < s.sysNat Sys.crankPermits then serveUpTo n (moveSet g .cranking s) else s

/-- GSD serves the queue (R100): at most three permits can be free. -/
def serveQueue (s : State) : State := serveUpTo 3 s

/-- A start request (R101): taken in RUN for a STANDBY set; otherwise its end is reported as failed. -/
def startSet (g : Fin 6) (o : Origin) (s : State) : State :=
  if s.inRun && (s.setRec g).state = .standby then
    gsdEvent (fun s =>
      let s := modSet g (fun r => { r with attempts := 0, origin := some o }) s
      serveQueue (moveSet g .queued s)) s
  else reportStart o g false s

/-- STOP is asserted on an ONLINE set for an owner, or for the black start program without one (R116,
R122). -/
def stopSet (g : Fin 6) (owner : Option Origin) (s : State) : State :=
  gsdEvent (fun s =>
    moveSet g .stopping (modSet g (fun r => { r with retry := false, stopOwner := owner }) s)) s

/-! ### Selection (R113) -/

/-- The number of ONLINE sets. -/
def State.onlineCount (s : State) : Nat :=
  ((List.finRange 6).filter fun g => (s.setRec g).state = .online).length

/-- The lowest-numbered ONLINE set. -/
def State.firstOnline (s : State) : Option (Fin 6) :=
  (List.finRange 6).find? fun g => (s.setRec g).state = .online

/-- Policy ROTATION (code 1). -/
def State.rotation (s : State) : Bool := s.sys Sys.policy = 1

/-- Candidates of the start selection, in list order. -/
def State.startCandidates (s : State) : List (Fin 6) :=
  s.meritList.filter fun g =>
    s.setInstalled g && (s.setRec g).state = .standby && !(s.setRec g).outOfService

/-- min_run as the image holds it at this selection has passed since the set became ONLINE (R96). -/
def State.minRunServed (s : State) (g : Fin 6) : Bool :=
  s.sysNat Sys.minRun * 1000 ≤ (s.setRec g).onlineMs

/-- Candidates of the stop selection, in list order: ONLINE with the min-run met mark that GSD holds (R113). DESIGN
CHOICE: min_run, read at each selection (R96), is held against the time ONLINE beside the mark, which the min-run timer
set from the min_run of its start (log entry 39). -/
def State.stopCandidates (s : State) : List (Fin 6) :=
  s.meritList.filter fun g =>
    s.setInstalled g && (s.setRec g).state = .online && (s.setRec g).minRunMet && s.minRunServed g

/-- Fewer run seconds win; among equals the one nearer the front stays. -/
def State.fewer (s : State) (best : Option (Fin 6)) (g : Fin 6) : Option (Fin 6) :=
  match best with
  | none => some g
  | some b => if (s.setRec g).runSeconds < (s.setRec b).runSeconds then some g else some b

/-- More run seconds win; among equals the one nearer the end. -/
def State.more (s : State) (best : Option (Fin 6)) (g : Fin 6) : Option (Fin 6) :=
  match best with
  | none => some g
  | some b => if (s.setRec g).runSeconds < (s.setRec b).runSeconds then some b else some g

/-- The start selection. -/
def State.startSelection (s : State) : Option (Fin 6) :=
  if s.rotation then s.startCandidates.foldl s.fewer none else s.startCandidates.head?

/-- The stop selection. -/
def State.stopSelection (s : State) : Option (Fin 6) :=
  if s.rotation then s.stopCandidates.foldl s.more none else s.stopCandidates.getLast?

/-- START_NEXT for an accepted condition (R115). -/
def startNext (c : Fin 24) (s : State) : State :=
  match s.startSelection with
  | none => emit (.complete .gsd c .none) s
  | some g => startSet g (.response c) s

/-- STOP_NEXT for an accepted condition (R116). -/
def stopNext (c : Fin 24) (s : State) : State :=
  match s.stopSelection with
  | none => emit (.complete .gsd c .none) s
  | some g =>
    if s.onlineCount < 2 then emit (.complete .gsd c .none) s else stopSet g (some (.response c)) s

/-! ### Input events in RUN -/

/-- STANDBY if READY is high and the set is in service, UNAVAILABLE otherwise (R107, R109, R111). -/
def SetRec.atRest (r : SetRec) : SetState :=
  if r.ready && !r.outOfService then .standby else .unavailable

/-- GSD raises GEN_TRIP (C5) or GEN_FAIL (C7) with the set as subject. -/
def raiseSet (c : Fin 24) (g : Fin 6) (s : State) : State := emit (.raise c (g.val + 1)) s

/-- A set enters RUN_UP; with its BREAKER already high it becomes ONLINE within the same event (R105). -/
def enterRunUp (g : Fin 6) (s : State) : State :=
  let s := moveSet g .runUp s
  if (s.setRec g).breaker then moveSet g .online s else s

/-- A failed attempt: below max_attempts the set rests, otherwise it is locked out and GEN_FAIL raised
(R102, R107). -/
def restOrLockout (g : Fin 6) (s : State) : State :=
  if (s.setRec g).attempts < s.sysNat Sys.maxAttempts then moveSet g .rest s
  else raiseSet 7 g (moveSet g .lockout s)

/-- The state of a set whose start the host or the program gives up: STANDBY, but UNAVAILABLE for a set out of
service, which does not become STANDBY (R118, R119, R122; DEDUCED, log entry 45). -/
def SetRec.givenUp (r : SetRec) : SetState := if r.outOfService then .unavailable else .standby

/-- A set gives up its start (R118, R122). -/
def giveUp (g : Fin 6) (s : State) : State := moveSet g (s.setRec g).givenUp s

/-- RUNNING rises, in RUN (R102, R111). -/
def runningRisen (g : Fin 6) (s : State) : State :=
  match (s.setRec g).state with
  | .unavailable => enterRunUp g s
  | .standby => enterRunUp g s
  | .queued => serveQueue (enterRunUp g s)
  | .cranking => serveQueue (enterRunUp g s)
  | .rest => enterRunUp g s
  | .runUp => s
  | .online => s
  | .stopping => s
  | .lockout => s

/-- RUNNING falls, in RUN (R107, R109, R111). -/
def runningFallen (g : Fin 6) (s : State) : State :=
  let r := s.setRec g
  match r.state with
  | .stopping =>
    let s := modSet g (fun r => { r with retry := false }) s
    if r.retry then restOrLockout g s else moveSet g r.atRest s
  | .online => moveSet g r.atRest (raiseSet 5 g s)
  | .runUp => moveSet g r.atRest s
  | .unavailable => s
  | .standby => s
  | .queued => s
  | .cranking => s
  | .rest => s
  | .lockout => s

/-- BREAKER rises, in RUN: a set in RUN_UP becomes ONLINE; not acted on while RUNNING is low (R105, R111). -/
def setBreakerRisen (g : Fin 6) (s : State) : State :=
  if (s.setRec g).state = .runUp && (s.setRec g).running then moveSet g .online s else s

/-- BREAKER falls, in RUN: an ONLINE set that still runs trips to RUN_UP (R109). -/
def setBreakerFallen (g : Fin 6) (s : State) : State :=
  if (s.setRec g).state = .online && (s.setRec g).running then moveSet g .runUp (raiseSet 5 g s) else s

/-- READY rises, in RUN (R110). -/
def readyRisen (g : Fin 6) (s : State) : State :=
  if (s.setRec g).state = .unavailable && !(s.setRec g).outOfService then moveSet g .standby s else s

/-- READY falls, in RUN (R110). -/
def readyFallen (g : Fin 6) (s : State) : State :=
  match (s.setRec g).state with
  | .standby => moveSet g .unavailable s
  | .queued => moveSet g .unavailable s
  | .rest => moveSet g .unavailable s
  | .cranking => serveQueue (moveSet g .unavailable s)
  | .unavailable => s
  | .runUp => s
  | .online => s
  | .stopping => s
  | .lockout => s

/-! ### Timer events -/

/-- The crank timer of a CRANKING set expires (R102). -/
def crankExpired (g : Fin 6) (s : State) : State :=
  serveQueue (restOrLockout g (modSet g (fun r => { r with attempts := r.attempts + 1 }) s))

/-- The rest timer of a set in REST expires (R103). -/
def restExpired (g : Fin 6) (s : State) : State := serveQueue (moveSet g .queued s)

/-- The sync timer of a set in RUN_UP expires (R106). DESIGN CHOICE: attempts is increased before the UNIT notice of
STOPPING is queued, which carries the increased count (R99; log entry 58). -/
def syncExpired (g : Fin 6) (s : State) : State :=
  moveSet g .stopping (modSet g (fun r => { r with attempts := r.attempts + 1, retry := true }) s)

/-- The stop timer of a STOPPING set expires (R108). -/
def stopExpired (g : Fin 6) (s : State) : State :=
  raiseSet 7 g (moveSet g .lockout (modSet g (fun r => { r with retry := false }) s))

/-! ### A set that is not installed (R96) -/

/-- A set that is not installed is held UNAVAILABLE: from another state it moves there, its retry mark clear, and a
permit it held serves the queue. -/
def holdUnavailable (g : Fin 6) (s : State) : State :=
  let old := (s.setRec g).state
  let t := moveSet g .unavailable (modSet g (fun r => { r with retry := false }) s)
  if old = .unavailable then s else if old = .cranking then serveQueue t else t

/-- `f` acts on an installed set; one that is not installed is held UNAVAILABLE in its place (R96). DESIGN CHOICE: a set
that a storage fault makes not installed (R170) becomes UNAVAILABLE at the first event of its own that GSD takes after
it, an edge of an input or the expiry of a timer, or at the next mapping (log entry 53). -/
def whileInstalled (f : Fin 6 → State → State) (g : Fin 6) (s : State) : State :=
  if s.setInstalled g then f g s else holdUnavailable g s

/-! ### The mapping (R120) -/

/-- The state the mapping gives. -/
def State.mappedSet (s : State) (g : Fin 6) : SetState :=
  let r := s.setRec g
  if !s.setInstalled g then .unavailable
  else if r.running then (if r.breaker then .online else .runUp)
  else if r.ready && !r.outOfService then .standby
  else .unavailable

/-- The set moves to the state the mapping gives. -/
def mapSet (g : Fin 6) (s : State) : State := moveSet g (s.mappedSet g) s

/-- The mapping taken afresh at a mode change: attempts 0, retry mark clear, and the timers and marks of
the state start anew even where the state stays (R120, R121; log entry 20). -/
def remapSet (g : Fin 6) (s : State) : State :=
  let s := mapSet g (modSet g (fun r => { r with attempts := 0, retry := false }) s)
  modSet g (fun r => s.enterSet r.state r) s

/-- At ENGAGE the mapping is applied once to every set (R120), in ascending number (DESIGN CHOICE, log entry
41). -/
def gsdEngage (s : State) : State := gsdEvent (forAll 6 remapSet) s

/-- The queue is emptied and every permit returned (R121). -/
def dropQueue (s : State) : State := { s with gsd.queue := [], gsd.permits := 0 }

/-- Timers stop, and origins and stop owners become absent (R121). -/
def releaseSets (s : State) : State :=
  { s with gsd.sets := s.gsd.sets.mapIdx fun _ r =>
      { r with origin := none, stopOwner := none, timer := none } }

/-- DISENGAGE, SAFE and RESTART end all dispatch in flight: the five items of R121. DESIGN CHOICE: the sets are
mapped in ascending number, here and at ENGAGE (log entry 41). -/
def gsdAbandon (s : State) : State :=
  gsdEvent (fun s => dropQueue (forAll 6 remapSet (releaseSets (dropQueue s)))) s

/-! ### Service to the black start program (R122) -/

/-- Withdraw: every QUEUED and REST set gives up its start. DESIGN CHOICE: in ascending set number, not in the
order of the crank queue (log entry 42). -/
def withdrawSets (s : State) : State :=
  gsdEvent (forAll 6 fun g s =>
    if (s.setRec g).state = .queued || (s.setRec g).state = .rest then giveUp g s else s) s

/-- Stop: every ONLINE set is stopped, in ascending number (DESIGN CHOICE, log entry 42). -/
def stopAllSets (s : State) : State :=
  forAll 6 (fun g s => if (s.setRec g).state = .online then stopSet g none s else s) s

end Sys2Proof.Machine
end

