-- ==== Sys2Proof/Machine/Ben.lean ====
section
/-!
DEFINITION. The Balance Engine: the eight stages of a pass on a PERIOD record, the pass on a DEAD record, and
what a pass hands on (R18 to R42).
-/
namespace Sys2Proof.Machine

/-! ### Stages 1 and 2: frequency and rocof -/

/-- The frequency of a period and whether it was clamped (R21). -/
def frequency (t : Nat) : Int × Bool :=
  if t ≤ 142857 then (70000, true)
  else if 250000 < t then (40000, true)
  else (((20000000000 + t) / (2 * t) : Nat), false)

/-- The ring after an append, with room for `n + 1` entries (R22). DESIGN CHOICE: where a storage fault has lowered
rocof_window as it is read (R170), every entry in excess, and not the oldest alone, leaves at the append (log entry 59). -/
def appendRing (n : Nat) (ring : List RingEntry) (e : RingEntry) : List RingEntry :=
  let r := ring ++ [e]
  r.drop (r.length - (n + 1))

/-- Whether a ring is settled for window `n` (R22). -/
def settled (n : Nat) (ring : List RingEntry) : Bool := n + 1 ≤ ring.length

/-- rocof over a ring after its append (R23). -/
def rocofOf (n : Nat) (ring : List RingEntry) : Int :=
  if settled n ring then
    match ring.head?, ring.getLast? with
    | some old, some new =>
      let total := (ring.tail.map RingEntry.t).sum
      if total = 0 then 0 else clamp (-20000) 20000 (Int.tdiv ((new.f - old.f) * 10000000) total)
    | _, _ => 0
  else 0

/-! ### Stage 3: aggregates -/

/-- A sum over the ONLINE sets (R24). -/
def State.sumOnline (s : State) (v : Fin 6 → Int) : Int :=
  (((List.finRange 6).filter fun g => (s.setRec g).state = .online).map v).sum

/-- What an ONLINE set contributes to G: its head value, fresh or held; 0 when absent (R24). -/
def setOutput (heads : Tab 31 HeadEntry) (g : Fin 6) : Int := (heads.get (setHead g)).value.getD 0

/-- G (R24). -/
def State.sumG (s : State) (heads : Tab 31 HeadEntry) : Int := s.sumOnline (setOutput heads)

/-- Rg (R24). -/
def State.sumRated (s : State) : Int := s.sumOnline s.setRated

/-- Fg (R24). -/
def State.sumFloor (s : State) : Int :=
  s.sumOnline fun g => Int.tdiv (s.setRated g * s.setFloorPct g) 100

/-- H (R25). -/
def State.sumHeadroom (s : State) (heads : Tab 31 HeadEntry) : Int :=
  s.sumOnline fun g =>
    if (heads.get (setHead g)).judgement = .fresh then max 0 (s.setRated g - setOutput heads g) else 0

/-- Whether a plant takes part in balancing: installed and in service. -/
def State.plantServes (s : State) (p : Fin 8) : Bool := s.plantInstalled p && (s.plantRow p).inService

/-- A sum over the plants that take part and pass a test. -/
def State.sumPlants (s : State) (keep : Fin 8 → Bool) (v : Fin 8 → Int) : Int :=
  (((List.finRange 8).filter fun p => s.plantServes p && keep p).map v).sum

/-- What a plant contributes to P (R26). -/
def State.plantOutput (s : State) (heads : Tab 31 HeadEntry) (p : Fin 8) : Int :=
  let e := heads.get (plantHead p)
  if e.judgement = .fresh then max 0 (e.value.getD 0)
  else
    match (s.plantRow p).lastSent with
    | some l => l
    | none => s.plantCapacity p

/-- P (R26). -/
def State.sumP (s : State) (heads : Tab 31 HeadEntry) : Int :=
  s.sumPlants (fun _ => true) (s.plantOutput heads)

/-- C_pv (R26). -/
def State.sumCapacity (s : State) : Int := s.sumPlants (fun _ => true) s.plantCapacity

/-- FL (R27). -/
def State.sumFeeders (s : State) (heads : Tab 31 HeadEntry) : Int :=
  (((List.finRange 16).filter s.feederInstalled).map fun f =>
    (heads.get (feederHead f)).value.getD 0).sum

/-! ### Stage 4: the allowance -/

/-- A_floor (R28). -/
def State.floorLimit (s : State) (p g fg : Int) : Int :=
  clamp 0 s.sumCapacity (p + g - fg - s.sys Sys.floorMargin)

/-- A_cap (R28). -/
def State.capLimit (s : State) : Int := Int.tdiv (s.sumCapacity * s.ctx.capPct) 100

/-- A_droop (R29). -/
def State.droopLimit (s : State) (f p : Int) : Int :=
  let edge := s.sys Sys.fNom + s.sys Sys.droopDb
  let span := s.sys Sys.droopSpan
  if f ≤ edge then s.sumCapacity else max 0 (Int.tdiv (p * (span - (f - edge))) span)

/-- A_ramp (R30). -/
def State.rampLimit (s : State) : Int := s.ben.aPrev + s.sys Sys.rampUpStep

/-- The least of the four limits, or 0 while forced-zero is set (R30). -/
def State.allowance (s : State) (floor cap droop ramp : Int) : Int :=
  if s.ctx.forcedZero then 0 else min floor (min cap (min droop ramp))

/-! ### Stages 5 and 6, and restoration readiness -/

/-- R: the required reserve (R31). -/
def State.reserve (s : State) (p : Int) : Int :=
  Int.tdiv (s.sys Sys.reservePct * p + 99) 100 + s.sys Sys.reserveFixed

/-- SURPLUS (R32). -/
def State.surplus (s : State) (h r : Int) : Bool :=
  match s.stopSelection with
  | none => false
  | some c => 2 ≤ s.onlineCount && r + s.sys Sys.stopMargin ≤ h - s.setRated c

/-- OVERLOAD (R33). -/
def State.overload (s : State) (g rg : Int) : Bool :=
  Int.tdiv (rg * s.sys Sys.overloadPct) 100 < g

/-- RESTORE_READY (R37); `stable` is the count after R36. -/
def State.restoreReady (s : State) (stable : Nat) (h : Int) : Bool :=
  match s.fdc.queue with
  | [] => false
  | f :: _ => s.sysNat Sys.restoreDelay ≤ stable && s.fits f h

/-! ### Stage 7: distribution -/

/-- One round of the leftover: 1 kW to each plant in turn that is below its capacity, until it is used up
(R39, R40). -/
def giveLeftover : Int → List (Fin 8 × Int × Int) → List (Fin 8 × Int)
  | _, [] => []
  | left, (p, share, capacity) :: rest =>
    if 0 < left ∧ share < capacity then (p, share + 1) :: giveLeftover (left - 1) rest
    else (p, share) :: giveLeftover left rest

/-- `pool` divided among the serving plants of a class in proportion to capacity, each share capped, and the
leftover given out in one round (R39, R40). -/
def State.divide (s : State) (pool : Int) (plants : List (Fin 8)) : List (Fin 8 × Int) :=
  let w := (plants.map s.plantCapacity).sum
  let shares := plants.map fun p =>
    (p, min (s.plantCapacity p) (Int.tdiv (pool * s.plantCapacity p) w), s.plantCapacity p)
  giveLeftover (pool - (shares.map fun x => x.2.1).sum) shares

/-- The serving plants of a class, ascending. -/
def State.servingClass (s : State) (flex : Bool) : List (Fin 8) :=
  (List.finRange 8).filter fun p => s.plantServes p && s.plantFlex p = flex

/-- The share of a plant in a division, 0 when it has none. -/
def shareOf (shares : List (Fin 8 × Int)) (p : Fin 8) : Int :=
  ((shares.find? fun x => x.1 = p).map Prod.snd).getD 0

/-- The eight ceilings of an allowance (R39 to R41). -/
def State.distribute (s : State) (heads : Tab 31 HeadEntry) (a : Int) : Tab 8 (Option Int) :=
  let fo := s.sumPlants (fun p => !s.plantFlex p) (s.plantOutput heads)
  let flexShares := s.divide (a - fo) (s.servingClass true)
  let firmShares := s.divide a (s.servingClass false)
  Tab.ofFn fun p =>
    if !s.plantInstalled p then none
    else if s.ctx.forcedZero || !(s.plantRow p).inService then some 0
    else if fo ≤ a then some (if s.plantFlex p then shareOf flexShares p else s.plantCapacity p)
    else some (if s.plantFlex p then 0 else shareOf firmShares p)

/-- Every installed plant receives 0 (R20). -/
def State.zeroCeilings (s : State) : Tab 8 (Option Int) :=
  Tab.ofFn fun p => if s.plantInstalled p then some 0 else none

/-! ### The pass -/

/-- The stale heads of installed units in a copy (R42). -/
def State.staleHeads (s : State) (heads : Tab 31 HeadEntry) : List (Fin 31) :=
  (List.finRange 31).filter fun h => s.headInstalled h && (heads.get h).judgement = .stale

/-- The fields that both kinds of pass compute for the record: stage 3 and R. -/
def State.baseRecord (s : State) (ps : PassStart) : PassRecord :=
  let p := s.sumP ps.heads
  { PassRecord.empty with
    number := s.ben.passNumber
    stamp := some ps.stamp
    kind := ps.kind
    g := some (s.sumG ps.heads)
    p := some p
    fl := some (s.sumFeeders ps.heads)
    rg := some s.sumRated
    fg := some s.sumFloor
    h := some (s.sumHeadroom ps.heads)
    r := some (s.reserve p)
    staleHeads := s.staleHeads ps.heads }

/-- What a pass presents: UF_DEEP, ROCOF_FALL, UF_LOW, OVERLOAD, RESERVE_SHORT, OVERFREQ, SURPLUS and
RESTORE_READY (R38). -/
def conditionValues (deep fall low heavy short high surplus ready : Bool) : List (Fin 24 × Bool) :=
  [(1, deep), (2, fall), (3, low), (4, heavy), (6, short), (9, high), (10, surplus), (11, ready)]

/-- The pass on a DEAD record (R20). As in a PERIOD pass, the record is replaced before RSC takes the presentation (log
entry 48). -/
def deadPass (ps : PassStart) (s : State) : State :=
  let s := { s with ben.ring := [], ben.stableMs := 0 }
  let record := { s.baseRecord ps with stableTime := some 0 }
  let falses := conditionValues false false false false false false false false
  if s.ctx.forcedZero then
    let record := { record with a := some 0, ceilings := s.zeroCeilings }
    let s := takeCeilings s.zeroCeilings { s with ben.aPrev := 0, ben.record := record }
    emit .bssPass (emit (.present falses) s)
  else emit .bssPass (emit (.present falses) { s with ben.record := record })

/-- The pass on a PERIOD record: stages 1 to 8 (R21 to R42). DESIGN CHOICE: RSC takes the presentation of R38 after the
record is replaced, so what it accepts reads the new record (log entry 48). -/
def periodPass (ps : PassStart) (s : State) : State :=
  let n := s.sysNat Sys.rocofWindow
  let (f, clamped) := frequency ps.value
  let ring := appendRing n s.ben.ring ⟨f, ps.value⟩
  let isSettled := settled n ring
  let rocof := rocofOf n ring
  let p := s.sumP ps.heads
  let g := s.sumG ps.heads
  let rg := s.sumRated
  let fg := s.sumFloor
  let h := s.sumHeadroom ps.heads
  let r := s.reserve p
  let aFloor := s.floorLimit p g fg
  let aCap := s.capLimit
  let aDroop := s.droopLimit f p
  let aRamp := s.rampLimit
  let a := s.allowance aFloor aCap aDroop aRamp
  let ceilings := s.distribute ps.heads a
  let stable := if f < s.sys Sys.restoreFMin then 0 else s.ben.stableMs
  let values := conditionValues (f < s.sys Sys.ufDeep)
    (isSettled && rocof < -s.sys Sys.rocofThreshold) (f < s.sys Sys.ufLow) (s.overload g rg)
    (h < r) (s.sys Sys.ofThreshold < f) (s.surplus h r) (s.restoreReady stable h)
  let record := { s.baseRecord ps with
    f := some f, rocof := some rocof, settled := isSettled, clamped := clamped
    aFloor := some aFloor, aCap := some aCap, aDroop := some aDroop, aRamp := some aRamp, a := some a
    ceilings := ceilings, stableTime := some stable }
  let s := { s with
    ben.ring := ring, ben.aPrev := a, ben.stableMs := stable, ben.record := record }
  emit .bssPass (emit (.present values) (takeCeilings ceilings s))

/-- BEN takes a pass start: the pass number rises, then the pass of its kind runs (R18). -/
def takePass (ps : PassStart) (s : State) : State :=
  let s := { s with ben.passNumber := s.ben.passNumber + 1 }
  match ps.kind with
  | .dead => deadPass ps s
  | .period => periodPass ps s
  | .none => periodPass ps s

/-- BEN takes the oldest pass start handed to it, if one waits (R18). -/
def takeNextPass (s : State) : State :=
  match s.ben.starts with
  | [] => s
  | ps :: rest => takePass ps { s with ben.starts := rest }

/-- BEN at ENGAGE: the ring is emptied, A_prev is C_pv and the stable-since timer restarts (R19). -/
def benEngage (s : State) : State :=
  { s with ben.ring := [], ben.aPrev := s.sumCapacity, ben.stableMs := 0 }

/-- BEN at RESTART (R19). Pass starts that wait are kept (log entry 26). -/
def benRestart (s : State) : State := { s with ben := { Ben.initial with starts := s.ben.starts } }

end Sys2Proof.Machine
end

