-- ==== Sys2Proof/Machine/Bss.lean ====
section
/-!
DEFINITION. The Black Start Sequencer: the entries to its states, the dead-bus grant, restoration, the second
collapse, the finish and the abort (R146 to R162).
-/
namespace Sys2Proof.Machine

/-- The cause of a change of program state, in the order of R162. -/
inductive Cause where
  | accepted | settled | firstClosed | firstLost | noCandidate | energized | collapse | energizeLimit
  | retry | abandon | queueEmpty | queueRemaining | startFailed | mode
  deriving DecidableEq, Repr

def Cause.code : Cause → Int
  | .accepted => 0 | .settled => 1 | .firstClosed => 2 | .firstLost => 3 | .noCandidate => 4
  | .energized => 5 | .collapse => 6 | .energizeLimit => 7 | .retry => 8 | .abandon => 9
  | .queueEmpty => 10 | .queueRemaining => 11 | .startFailed => 12 | .mode => 13

/-- Subject of a state notice: the first set, else the grant holder, else 0 (R162). -/
def State.bssSubject (s : State) : Nat :=
  match s.bss.firstSet, s.bss.holder with
  | some g, _ => g.val + 1
  | none, some g => g.val + 1
  | none, none => 0

/-- The notice of a change of program state, about `subject` (R162). -/
def notifyProgramOf (subject : Nat) (cause : Cause) (s : State) : State :=
  notify .blackstart subject
    [sField s.bss.program.code, sField s.bss.restarts, sField cause.code] s

/-- The notice of a change of program state, about the unit that the new state gives (R162). -/
def notifyProgram (cause : Cause) (s : State) : State := notifyProgramOf s.bssSubject cause s

/-- The WITHDRAW notice of a grant withdrawn without a close: the cause is TIMER (9) or a set state (R162). -/
def notifyWithdrawn (g : Fin 6) (cause : Int) (s : State) : State :=
  notify .blackstart (g.val + 1) [sField 17, sField cause] s

/-! ### Failure and clearing -/

/-- Every timer of R146 is idle, and phase and awaited unit are absent. -/
def Bss.quiet (b : Bss) : Bss :=
  { b with
    phase := none, awaited := none, firstCloseTimer := none, energizeTimer := none, limitTimer := none,
    settleTimer := none }

/-- The entry to FAILED (R159). -/
def enterFailed (cause : Cause) (s : State) : State :=
  notifyProgram cause { s with bss := { s.bss.quiet with program := .failed, holder := none } }

/-- The entry to CLEARING: the tried set is emptied and the first set absent; then the four items of R148 in
order. -/
def enterClearing (cause : Cause) (s : State) : State :=
  let s := { s with bss := { s.bss.quiet with
    program := .clearing, holder := none, firstSet := none, tried := Tab.const 6 false } }
  clearBus (stopAllSets (withdrawSets (setForcedZero (notifyProgram cause s))))

/-- BSS takes the start of the program (R148). -/
def startProgram (s : State) : State := enterClearing .accepted { s with bss.restarts := 0 }

/-! ### The first set and the grant (R150 to R152) -/

/-- Whether a set may receive the grant in the round for state `st` (R150). -/
def State.grantable (s : State) (st : SetState) (g : Fin 6) : Bool :=
  s.setInstalled g && !(s.setRec g).outOfService && s.setCapable g && !s.bss.tried.get g &&
    (s.setRec g).state = st

/-- The sets in the order of a round: the merit list, then the others ascending (R150). -/
def State.grantOrder (s : State) : List (Fin 6) :=
  s.meritList ++ (List.finRange 6).filter fun g => !s.meritList.contains g

/-- The set a selection finds and the round that finds it (R150). -/
def State.grantSelection (s : State) : Option (Fin 6 × SetState) :=
  match s.grantOrder.find? (s.grantable .runUp) with
  | some g => some (g, .runUp)
  | none => (s.grantOrder.find? (s.grantable .standby)).map fun g => (g, .standby)

/-- The entry to ENERGIZING with first set `g` (R151, R153). DESIGN CHOICE: a first set that never held the grant does
not join the tried set, so that after its loss it may still receive the grant (R150, R153; log entry 60). -/
def enterEnergizing (g : Fin 6) (s : State) : State :=
  let due := s.dueIn (s.sysNat Sys.firstCloseTime)
  notifyProgram .firstClosed { s with bss := { s.bss.quiet with
    program := .energizing, holder := none, firstSet := some g, limitTimer := some due } }

/-- The grant is given to a set: it joins the tried set and the first_close timer starts (R150). -/
def grantTo (g : Fin 6) (s : State) : State :=
  { s with
    bss.tried := s.bss.tried.put g true
    bss.holder := some g
    bss.firstCloseTimer := some (s.dueIn (s.sysNat Sys.firstCloseTime)) }

/-- The GRANT notice, and the start of a STANDBY set (R150, R162). -/
def announceGrant (g : Fin 6) (round : SetState) (s : State) : State :=
  let s := notify .blackstart (g.val + 1) [sField 16, sField round.code] s
  if round = .standby then startSet g .blackstart s else s

/-- A selection in FIRST (R150). `note` queues the notice of the entry to FIRST where the selection belongs
to one; it stands before the GRANT notice and names the new holder (R162). DESIGN CHOICE: where a set is found ONLINE the
cause of the ENERGIZING notice is FIRST_CLOSED, though no grant led to its close (R162; log entry 61). -/
def selectFirst (note : State → State) (s : State) : State :=
  match s.firstOnline with
  | some g => enterEnergizing g (note s)
  | none =>
    match s.grantSelection with
    | some (g, round) => announceGrant g round (note (grantTo g s))
    | none => enterFailed .noCandidate (note s)

/-- The entry to FIRST (R150). -/
def enterFirst (cause : Cause) (s : State) : State :=
  selectFirst (notifyProgram cause)
    { s with bss := { s.bss.quiet with program := .first, holder := none, firstSet := none } }

/-- A withdrawal in FIRST: the grant ends with its notice (cause TIMER 9 or the state entered), and BSS
selects again (R152, R162). -/
def withdrawGrant (cause : Int) (s : State) : State :=
  match s.bss.holder with
  | none => s
  | some g =>
    let s := { s with bss.holder := none, bss.firstCloseTimer := none }
    selectFirst id (notifyWithdrawn g cause s)

/-- The states of the holder that withdraw its grant (R152). -/
def withdraws (st : SetState) : Bool :=
  st = .lockout || st = .unavailable || st = .standby || st = .stopping

/-- The first_close timer, which runs in FIRST, expires (R152). -/
def firstCloseExpired (s : State) : State :=
  if s.bss.program = .first then withdrawGrant 9 s else s

/-! ### The second collapse, the finish and the abort -/

/-- A second collapse: the three items of R157. -/
def collapse (cause : Cause) (s : State) : State :=
  let restarts := s.bss.restarts + 1
  let s := { s with bss := { s.bss.quiet with firstSet := none, restarts := restarts } }
  if Config.restartLimit < restarts then enterFailed cause s else enterClearing cause s

/-- The finish (R158). -/
def finish (cause : Cause) (s : State) : State :=
  let s := liftForcedZero s
  let s := { s with bss := { s.bss.quiet with program := .idle } }
  emit (.complete .bss 0 .done) (notifyProgram cause s)

/-- ABANDON of a failed program (R159). -/
def abandonProgram (s : State) : State :=
  let s := liftForcedZero s
  let s := { s with bss.program := .idle }
  emit (.complete .bss 0 .failed) (notifyProgram .abandon s)

/-- RETRY of a failed program (R159). -/
def retryProgram (s : State) : State := enterClearing .retry { s with bss.restarts := 0 }

/-- The grant is withdrawn at an abort (R160), without a close, with its WITHDRAW notice (R162). DESIGN CHOICE: its cause
is the state the holder stands in, which is the state that the mapping of the mode change gave it (log entry 27). -/
def announceAbort (s : State) : State :=
  match s.bss.holder with
  | none => s
  | some g => notifyWithdrawn g (s.setRec g).state.code s

/-- DISENGAGE, SAFE and RESTART abort a program that runs (R160). DESIGN CHOICE: the WITHDRAW notice of a grant stands
before the state notice, whose subject in FIRST is the set that held the grant (log entry 27). -/
def abortProgram (s : State) : State :=
  if s.bss.program = .idle then s
  else
    let subject := s.bssSubject
    let s := announceAbort s
    let s := { s with bss := { s.bss.quiet with program := .idle, holder := none } }
    clearForcedZero (notifyProgramOf subject .mode s)

/-- RESTART also resets restarts and the sets read from the last attempt (R146). DESIGN CHOICE: the notice of the
abort stands before that reset, with the restarts and the first set as they were, and the reset is made also where the
program is IDLE (log entry 44). -/
def bssRestart (s : State) : State := { abortProgram s with bss := Bss.initial }

/-! ### Reports and timers -/

/-- The clear has settled; taken in CLEARING alone (R149, R161). -/
def clearSettled (s : State) : State :=
  if s.bss.program = .clearing then enterFirst .settled (rebuildQueue s) else s

/-- The first set has left ONLINE in ENERGIZING (R153). A set that takes its place does not join the tried set (log
entry 60). -/
def firstLost (s : State) : State :=
  let s := { s with bss.energizeTimer := none }
  match s.firstOnline with
  | some g => { s with bss.firstSet := some g }
  | none => enterFirst .firstLost s

/-- A change of a set's state reaches BSS (R151 to R153, R161). -/
def setMoved (g : Fin 6) (old new : SetState) (s : State) : State :=
  match s.bss.program with
  | .first =>
    if new = .online then enterEnergizing g s
    else if s.bss.holder = some g && withdraws new then withdrawGrant new.code s
    else s
  | .energizing => if s.bss.firstSet = some g && old = .online then firstLost s else s
  | .idle => s
  | .clearing => s
  | .restoring => s
  | .failed => s

/-- Whether the pass record shows the bus at or above restore_f_min (R153, R154). -/
def State.busStands (s : State) : Bool :=
  match s.ben.record.f with
  | some f => s.sys Sys.restoreFMin ≤ f
  | none => false

/-- The energize timer at the end of a pass in ENERGIZING (R153). -/
def energizePass (s : State) : State :=
  if s.ben.record.kind = .period && s.busStands then
    match s.bss.energizeTimer with
    | some _ => s
    | none => { s with bss.energizeTimer := some (s.dueIn (s.sysNat Sys.energizeTime)) }
  else { s with bss.energizeTimer := none }

/-- BSS closes the head feeder (R155). DESIGN CHOICE: the CLOSE notice is queued before the FEEDER notices of the close
(log entry 27). -/
def closeHead (f : Fin 16) (s : State) : State :=
  let s := { s with bss.phase := some .close, bss.awaited := some (.feeder f) }
  closeFeeder f .blackstart (notify .blackstart (f.val + 1) [sField 18, sField (s.need f)] s)

/-- BSS starts a set for headroom (R156). DESIGN CHOICE: the START notice is queued before the UNIT notices of the start
(log entry 27). -/
def startForHeadroom (g : Fin 6) (s : State) : State :=
  let s := { s with bss.phase := some .start, bss.awaited := some (.set g) }
  startSet g .blackstart (notify .blackstart (g.val + 1) [sField 19] s)

/-- The decision of phase WAIT at a PERIOD pass (R154). -/
def restoreDecision (s : State) : State :=
  match s.fdc.queue with
  | [] => finish .queueEmpty s
  | f :: _ =>
    if s.busStands && s.fits f s.headroom then closeHead f s
    else
      match s.startSelection with
      | some g => startForHeadroom g s
      | none => finish .queueRemaining s

/-- A pass has ended: read in ENERGIZING and in phase WAIT (R153, R154, R161). -/
def bssPass (s : State) : State :=
  match s.bss.program with
  | .energizing => energizePass s
  | .restoring =>
    if s.bss.phase = some .wait && s.ben.record.kind = .period then restoreDecision s else s
  | .idle => s
  | .clearing => s
  | .first => s
  | .failed => s

/-- The energize timer, which runs in ENERGIZING, expires: RESTORING, phase WAIT (R153). -/
def energizeExpired (s : State) : State :=
  if s.bss.program = .energizing then
    notifyProgram .energized { s with bss := { s.bss.quiet with
      program := .restoring, phase := some .wait } }
  else s

/-- The energize limit timer, which runs in ENERGIZING, expires (R153, R157). -/
def limitExpired (s : State) : State :=
  if s.bss.program = .energizing then collapse .energizeLimit s else s

/-- The settle timer, which runs in phase SETTLE, expires (R155). -/
def settleExpired (s : State) : State :=
  if s.bss.phase = some .settle then { s with bss.settleTimer := none, bss.phase := some .wait } else s

/-- The end of the awaited close (R155, R161). -/
def closeEnded (f : Fin 16) (s : State) : State :=
  if s.bss.program = .restoring && s.bss.phase = some .close && s.bss.awaited = some (.feeder f) then
    { s with
      bss.awaited := none
      bss.phase := some .settle
      bss.settleTimer := some (s.dueIn (s.sysNat Sys.settleTime)) }
  else s

/-- The end of the awaited start (R156, R161). -/
def startEnded (g : Fin 6) (ok : Bool) (s : State) : State :=
  if s.bss.program = .restoring && s.bss.phase = some .start && s.bss.awaited = some (.set g) then
    if ok then { s with bss.awaited := none, bss.phase := some .wait }
    else finish .startFailed { s with bss.awaited := none }
  else s

/-- BUS_DEAD has become true (R157). -/
def busDied (s : State) : State :=
  if s.bss.program = .energizing || s.bss.program = .restoring then collapse .collapse s else s

end Sys2Proof.Machine
end

