-- ==== Sys2Proof/Machine/Chu.lean ====
section
/-!
DEFINITION. The Chain Unit: binding, the choice of the chain that serves an acceptance, taking and completing
a step, and the abandonment of steps (R78 to R95).
-/
namespace Sys2Proof.Machine

/-- The condition CHAIN_DONE_n: C14 for chain 0 to C19 for chain 5 (R91). -/
def chainDone (n : Fin 6) : Fin 24 := ⟨14 + n.val, by omega⟩

/-- A CHAIN notice: the event code (BIND 0, UNBIND 1, END 2, ABANDONED 3) and its values (R81, R193). -/
def notifyChain (n : Fin 6) (event : Int) (values : List Word) (s : State) : State :=
  notify .chain n.val (sField event :: values) s

/-- Yes 1, no 0, as a field (log entry 55). -/
def yesNo (b : Bool) : Word := sField (boolInt b)

/-! ### Beginning and completing a step (R83, R91) -/

/-- The start of a step: in-step is set with the units acted on, the count and the cursor take their new
values, and the revision is incremented (R83). -/
def beginStep (n : Fin 6) (forCond : Option (Fin 24)) (units : List PlantUnit) (count cursor : Nat)
    (s : State) : State :=
  modChain n (fun ch => { ch with
    flight := some ⟨forCond, units, false⟩, count := count, cursor := cursor,
    revision := ch.revision + 1 }) s

/-- The completion of the step in flight: the five items of R91 in order. -/
def completeStep (n : Fin 6) (o : StepOutcome) (s : State) : State :=
  let ch := s.chain n
  let unbound := ch.count = 0
  let s := modChain n (fun ch => { ch with
    flight := none, trigger := if unbound then none else ch.trigger, revision := ch.revision + 1 }) s
  let s := notifyChain n 2 [sField o.code, sField ch.count, yesNo unbound] s
  let s := match ch.flight.bind Flight.forCond with
    | some c => emit (.complete .chu c o) s
    | none => s
  if unbound then emit (.raise (chainDone n) n.val) s else s

/-- A unit of the step in flight has ended; the step completes at its last unit. A report for a unit whose
step is no longer in flight is discarded (R91). -/
def unitEnded (n : Fin 6) (u : PlantUnit) (ok : Bool) (s : State) : State :=
  match (s.chain n).flight with
  | none => s
  | some fl =>
    if u ∈ fl.units then
      let fl := { fl with units := fl.units.erase u, failed := fl.failed || !ok }
      let s := modChain n (fun ch => { ch with flight := some fl }) s
      if fl.units.isEmpty then completeStep n (if fl.failed then .failed else .done) s else s
    else s

/-! ### Taking a step (R83 to R90) -/

/-- A step that acts on nothing: it begins, with the given count and cursor, and completes NONE. -/
def emptyStep (n : Fin 6) (forCond : Option (Fin 24)) (count cursor : Nat) (s : State) : State :=
  completeStep n .none (beginStep n forCond [] count cursor s)

/-- Whether a SHED scan may trip a feeder: none of the four cases of R84. -/
def State.sheddable (s : State) (f : Fin 16) : Bool :=
  s.feederInstalled f && !s.feederEssential f && !(s.feederRec f).outOfService &&
    (s.feederRec f).state = .closed

/-- A SHED scan for up to `want` feeders: those found, and the position after the last one scanned (R84,
R85). -/
def State.shedScan (s : State) : Nat → Nat → List (Fin 16) → List (Fin 16) × Nat
  | 0, pos, _ => ([], pos)
  | _ + 1, pos, [] => ([], pos)
  | want + 1, pos, f :: rest =>
    if s.sheddable f then
      let r := s.shedScan want (pos + 1) rest
      (f :: r.1, r.2)
    else s.shedScan (want + 1) (pos + 1) rest

/-- A RESTORE scan of up to `want` entries with the running headroom `h` (R86). -/
def State.restoreScan (s : State) : Nat → Int → List (Fin 16) → List (Fin 16)
  | 0, _, _ => []
  | _ + 1, _, [] => []
  | want + 1, h, f :: rest =>
    if s.fits f h then f :: s.restoreScan want (h - s.need f) rest else []

/-- How many feeders one step may act on: the count in BURST mode, else one. -/
def Chain.want (ch : Chain) : Nat := if ch.mode = .burst then ch.count else 1

/-- The feeders of the list a chain works through. -/
def State.chainFeeders (s : State) (ch : Chain) : List (Fin 16) :=
  match ch.list with
  | some l => s.shedList l
  | none => []

/-- A SHED step (R84, R85); the trips of one step are made in ascending feeder number (R127). DESIGN CHOICE: a feeder
that a storage fault names twice in the list (R170) may be found twice: it then counts twice in the step's units and off
the count, and is tripped once, with no failed end for the second (R128; log entry 54). -/
def shedStep (n : Fin 6) (forCond : Option (Fin 24)) (s : State) : State × Nat :=
  let ch := s.chain n
  let feeders := s.chainFeeders ch
  let found := s.shedScan ch.want ch.cursor (feeders.drop ch.cursor)
  let cursor := min found.2 feeders.length
  if found.1.isEmpty then (emptyStep n forCond 0 cursor s, 0)
  else
    let units := ascending found.1
    let s := beginStep n forCond (units.map .feeder) (ch.count - found.1.length) cursor s
    (units.foldl (fun s f => tripFeeder f (.chain n) s) s, found.1.length)

/-- A RESTORE step (R86); the closes of one step are made in ascending feeder number (R127). -/
def restoreStep (n : Fin 6) (forCond : Option (Fin 24)) (s : State) : State × Nat :=
  let ch := s.chain n
  if s.fdc.queue.isEmpty then (emptyStep n forCond 0 ch.cursor s, 0)
  else
    let found := s.restoreScan ch.want s.headroom s.fdc.queue
    if found.isEmpty then (emptyStep n forCond ch.count ch.cursor s, 0)
    else
      let units := ascending found
      let s := beginStep n forCond (units.map .feeder) (ch.count - found.length) ch.cursor s
      (units.foldl (fun s f => closeFeeder f (.chain n) s) s, found.length)

/-- A START step (R87). -/
def startStep (n : Fin 6) (forCond : Option (Fin 24)) (s : State) : State × Nat :=
  let ch := s.chain n
  match s.startSelection with
  | none => (emptyStep n forCond 0 ch.cursor s, 0)
  | some g => (startSet g (.chain n) (beginStep n forCond [.set g] (ch.count - 1) ch.cursor s), 1)

/-- A STOP step (R88). -/
def stopStep (n : Fin 6) (forCond : Option (Fin 24)) (s : State) : State × Nat :=
  let ch := s.chain n
  match s.stopSelection with
  | none => (emptyStep n forCond 0 ch.cursor s, 0)
  | some g =>
    if s.onlineCount < 2 then (emptyStep n forCond 0 ch.cursor s, 0)
    else (stopSet g (some (.chain n)) (beginStep n forCond [.set g] (ch.count - 1) ch.cursor s), 1)

/-- A step that completes at once with DONE, after `f` has acted (R89, R90). -/
def atOnceStep (n : Fin 6) (forCond : Option (Fin 24)) (f : State → State) (s : State) : State × Nat :=
  let ch := s.chain n
  (completeStep n .done (f (beginStep n forCond [] (ch.count - 1) ch.cursor s)), 1)

/-- CHU takes a step by the kind and mode of the chain; beside the state, the number of units the step acted
on, one for a CAP or a COUNT step (R83). -/
def takeStep (n : Fin 6) (forCond : Option (Fin 24)) (s : State) : State × Nat :=
  let ch := s.chain n
  let size : Int := (ch.stepSize.getD 0 : Nat)
  if ch.mode = .count then atOnceStep n forCond id s
  else
    match ch.kind with
    | .shed => shedStep n forCond s
    | .restore => restoreStep n forCond s
    | .start => startStep n forCond s
    | .stop => stopStep n forCond s
    | .capDown => atOnceStep n forCond (moveCap (-size)) s
    | .capUp => atOnceStep n forCond (moveCap size) s

/-! ### Serving an acceptance (R82) -/

/-- Whether a chain qualifies for an acceptance of `c`. -/
def State.qualifies (s : State) (c : Fin 24) (n : Fin 6) : Bool :=
  (s.chain n).trigger = some c && 0 < (s.chain n).count && (s.chain n).flight.isNone

/-- CHU takes the start of a CHAINS response: the lowest chain that qualifies takes a step; if none does,
the completion is reported at once with NONE. -/
def chainsResponse (c : Fin 24) (s : State) : State :=
  match (List.finRange 6).find? (s.qualifies c) with
  | none => emit (.complete .chu c .none) s
  | some n => (takeStep n (some c) s).1

/-! ### Binding (R79, R80) -/

/-- The row an OK BIND writes, with its revision and notice (R79, R81). A trigger of none has the absent code in the
notice (log entry 11). -/
def bindChain (n : Fin 6) (trigger : Option (Fin 24)) (kind : ChainKind) (list : Fin 4) (count : Nat)
    (mode : ChainMode) (size : Nat) (s : State) : State :=
  let full := if kind = .shed then (s.shedList list).length else 16
  let written := if count = 0 then full else count
  let s := modChain n (fun ch => {
    trigger := trigger
    kind := kind
    list := if kind = .shed then some list else none
    cursor := 0
    count := written
    mode := mode
    stepSize := if kind = .capDown || kind = .capUp then some size else none
    flight := none
    revision := ch.revision + 1 }) s
  notifyChain n 0 [optField (trigger.map fun c => c.val), sField kind.code, sField written] s

/-- UNBIND: a bound chain loses its count and trigger; an unbound one is not changed (R80, R81). -/
def unbindChain (n : Fin 6) (s : State) : State :=
  if (s.chain n).count = 0 then s
  else
    notifyChain n 1 []
      (modChain n (fun ch => { ch with count := 0, trigger := none, revision := ch.revision + 1 }) s)

/-! ### Mode changes (R78, R94) -/

/-- The step in flight of a chain is abandoned (R94). -/
def abandonStep (n : Fin 6) (s : State) : State :=
  let ch := s.chain n
  if ch.flight.isNone then s
  else
    let unbound := ch.count = 0
    notifyChain n 3 [sField ch.count, yesNo unbound] (modChain n (fun ch => { ch with
      flight := none, trigger := if unbound then none else ch.trigger, revision := ch.revision + 1 }) s)

/-- DISENGAGE, SAFE and RESTART abandon every step in flight (R94). DESIGN CHOICE: in ascending chain number (log entry
41). -/
def chuAbandon (s : State) : State := forAll 6 abandonStep s

/-- RESTART: steps are abandoned, then every chain is unbound; a row's revision is incremented once for the
event (R78, R81). -/
def chuRestart (s : State) : State :=
  let t := chuAbandon s
  { t with chains := t.chains.mapIdx fun n ch =>
      let changed := ch.count != 0 || ch.trigger.isSome
      { ch with
        count := 0, trigger := none
        revision := if changed && (s.chain n).flight.isNone then ch.revision + 1 else ch.revision } }

end Sys2Proof.Machine
end

