-- ==== Sys2Proof/Machine/Flags.lean ====
section
/-!
DEFINITION. The request flags and alarm latches of RSC: how a presentation, a raise and the host set and
clear a flag (R57 to R64), and how the latches follow the truth of their conditions (R74 to R76).
-/
namespace Sys2Proof.Machine

/-- The conditions that arrive as values: C0 to C4, C6, C9 to C13 (R57). -/
def isPresented (c : Fin 24) : Bool :=
  c.val ≤ 4 || c.val = 6 || (9 ≤ c.val && c.val ≤ 13)

/-- The event conditions: C5, C7, C8, C14 to C19 (R57). -/
def isEvent (c : Fin 24) : Bool :=
  c.val = 5 || c.val = 7 || c.val = 8 || (14 ≤ c.val && c.val ≤ 19)

/-- Whether a condition is true for its alarm latch (R74). -/
def State.truth (s : State) (c : Fin 24) : Bool :=
  if isPresented c && s.condHold c then (s.condRow c).last else (s.condRow c).flag

/-! ### Latches (R74) -/

/-- The column "Condition becomes true" of R74. -/
def Latch.onTrue : Latch → Latch
  | .idle => .active | .active => .active | .activeAcked => .activeAcked | .clearedUnacked => .active

/-- The column "Condition becomes false" of R74. -/
def Latch.onFalse : Latch → Latch
  | .idle => .idle | .active => .clearedUnacked | .activeAcked => .idle
  | .clearedUnacked => .clearedUnacked

/-- The column "ACK" of R74. -/
def Latch.onAck : Latch → Latch
  | .idle => .idle | .active => .activeAcked | .activeAcked => .activeAcked | .clearedUnacked => .idle

/-- A latch takes a state; a change queues an ALARM notice with the new state and the route (R74). -/
def setLatch (c : Fin 24) (l : Latch) (s : State) : State :=
  if (s.condRow c).latch = l then s
  else
    notify .alarm c.val [sField l.code, sField (s.condRoute c)]
      (modCond c (fun r => { r with latch := l }) s)

/-- The latch of SETTINGS_FAULT takes a state; its route is A (R74, R76). -/
def setFaultLatch (l : Latch) (s : State) : State :=
  if s.rsc.faultLatch = l then s
  else notify .alarm 24 [sField l.code, 1] { s with rsc.faultLatch := l }

/-- A routed latch follows a change of its condition's truth; a latch with route NONE stays (R74). -/
def moveLatch (c : Fin 24) (nowTrue : Bool) (s : State) : State :=
  if s.condRoute c = 0 then s
  else
    let l := (s.condRow c).latch
    setLatch c (if nowTrue then l.onTrue else l.onFalse) s

/-- `f` acts on the row of a condition; the latch moves if the condition's truth changes (R74). DESIGN CHOICE: the truth
before and after is read with the settings as they then stand, so that a storage fault that changes what the mode or the
alarm route reads as (R170) moves no latch by itself, and a latch whose route then reads NONE stays (log entry 57). -/
def withTruth (c : Fin 24) (f : State → State) (s : State) : State :=
  let t := f s
  if t.truth c = s.truth c then t else moveLatch c (t.truth c) t

/-- A numbered latch takes an ACK (R75). -/
def ackLatch (c : Fin 24) (s : State) : State := setLatch c (s.condRow c).latch.onAck s

/-- The SETTINGS_FAULT latch takes an ACK (R75). -/
def ackFaultLatch (s : State) : State := setFaultLatch s.rsc.faultLatch.onAck s

/-- A change of alarm route acts on the latch (the second table of R76). Routes: NONE 0, A 1, B 2. The
image already holds the new route. -/
def routeChanged (c : Fin 24) (old new : Nat) (s : State) : State :=
  if old = 0 ∧ new ≠ 0 then (if s.truth c then setLatch c .active s else s)
  else if old ≠ 0 ∧ new = 0 then setLatch c .idle s
  else s

/-! ### Flags (R58 to R63) -/

/-- Whether the condition's own entry stands in the active set (R59). -/
def State.hasEntry (s : State) (c : Fin 24) : Bool :=
  (List.finRange 7).any fun l =>
    match s.rsc.active.get l with
    | some e => e.cond = c
    | none => false

/-- Whether a level-7 entry stands (R70). -/
def State.level7 (s : State) : Bool := (s.rsc.active.get 6).isSome

/-- The flag is set; `subj` is the subject of a raise (R57). -/
def setFlag (c : Fin 24) (subj : Option Nat) (s : State) : State :=
  withTruth c (modCond c fun r =>
    { r with flag := true, raisedBy := if r.flag then r.raisedBy else subj }) s

/-- The flag is cleared. -/
def clearFlag (c : Fin 24) (s : State) : State :=
  withTruth c (modCond c fun r => { r with flag := false, raisedBy := none }) s

/-- Whether a presentation of `v` sets the flag: the edge of R58, or the value of R59 outside its three
exceptions; never while the hold-off timer runs (R60). -/
def State.presentSets (s : State) (c : Fin 24) (v : Bool) : Bool :=
  v && (s.condRow c).holdOff.isNone &&
    if s.condHold c then !s.hasEntry c && !(c = 0 && s.rsc.suppress) else !(s.condRow c).last

/-- One presented value: flag, last presented value, latch, and the end of the C0 suppression (R58, R59,
R64, R74). -/
def presentValue (c : Fin 24) (v : Bool) (s : State) : State :=
  let sets := s.presentSets c v
  let clears := s.condHold c && !v
  let t := withTruth c (modCond c fun r =>
    { r with
      last := v
      flag := if sets then true else if clears then false else r.flag
      raisedBy := if clears then none else r.raisedBy }) s
  if c = 0 && !v then { t with rsc.suppress := false } else t

/-- Whether a raise sets the flag: in EDGE mode every raise, in HOLD mode under the exceptions of R59;
never while the hold-off timer runs (R58, R59, R60). -/
def State.raiseSets (s : State) (c : Fin 24) : Bool :=
  (s.condRow c).holdOff.isNone && !(s.condHold c && s.hasEntry c)

end Sys2Proof.Machine
end

