-- ==== Sys2Proof/Machine/Rsc.lean ====
section
/-!
DEFINITION. Acceptance and completion in RSC (R66 to R73).
-/
namespace Sys2Proof.Machine

/-- The level a condition is accepted at: C0 is fixed at 7 (R55). -/
def State.levelOf (s : State) (c : Fin 24) : Nat := if c = 0 then 7 else s.condLevel c

/-- The place of a level 1 to 7 in the active set. -/
def levelSlot (l : Nat) : Fin 7 := ⟨(l - 1) % 7, by omega⟩

/-- Eligibility (R67). -/
def State.eligible (s : State) (c : Fin 24) : Bool :=
  (s.condRow c).flag && (s.condRow c).holdOff.isNone && !s.hasEntry c &&
    (c = 0 || (s.condEnabled c && 1 ≤ s.condLevel c && s.condLevel c ≤ 6 && s.rsc.auto))

/-- The better of two candidates: the higher level, and the lower number among equals (R67). -/
def State.better (s : State) (best : Option (Fin 24)) (c : Fin 24) : Option (Fin 24) :=
  match best with
  | none => some c
  | some b => if s.levelOf b < s.levelOf c then some c else some b

/-- The candidate of an examination (R67). -/
def State.candidate (s : State) : Option (Fin 24) :=
  ((List.finRange 24).filter s.eligible).foldl s.better none

/-- The levels of the entries that stand, ascending (R70). -/
def State.activeLevels (s : State) : List Nat :=
  ((List.finRange 7).filter fun l => (s.rsc.active.get l).isSome).map fun l => l.val + 1

/-- The admission test of R68. -/
def State.admitted (s : State) (c : Fin 24) : Bool :=
  if c = 0 then !s.level7
  else if s.sys Sys.levels = 1 then s.activeLevels.all fun l => l < s.condLevel c
  else s.activeLevels.isEmpty

/-- The response kind an acceptance starts; for C0 it depends on black_start_permitted (R69). -/
def State.kindStarted (s : State) (c : Fin 24) : ResponseKind :=
  if c = 0 then (if s.sys Sys.blackStartPermitted = 1 then .blackStart else .notice) else s.condKind c

/-- The part is told to start the response, or a NOTICE response completes at once (R69). -/
def startHandover (c : Fin 24) (k : ResponseKind) : Handover :=
  match k with
  | .notice => .complete .rsc c .done
  | k => .startResponse c k

/-- The ACCEPTED notice: level, kind, and for a raised condition the subject of the raise (R69; log
entry 15). -/
def acceptedValues (level : Nat) (k : ResponseKind) (subject : Option Nat) : List Word :=
  [sField level, sField k.code] ++ (match subject with | some n => [sField n] | none => [])

/-- RSC accepts a candidate: the four items of R69 in order. -/
def accept (c : Fin 24) (s : State) : State :=
  let level := s.levelOf c
  let k := s.kindStarted c
  let subject := (s.condRow c).raisedBy
  let s := clearFlag c s
  let s := { s with rsc.active := s.rsc.active.put (levelSlot level) (some ⟨c, k, s.tick⟩) }
  let s := notify .accepted c.val (acceptedValues level k subject) s
  emit (startHandover c k) s

/-- One examination: in RUN, at most one condition is accepted (R66 to R68). -/
def examine (s : State) : State :=
  if s.inRun then
    match s.candidate with
    | none => s
    | some c => if s.admitted c then accept c s else s
  else s

/-- A presentation of one or more values taken together, then the examination if a flag was set (R57,
R66). DESIGN CHOICE: the rows are updated in ascending condition number, and so stand the ALARM notices of the latches
that move (R74; log entry 49). -/
def present (values : List (Fin 24 × Bool)) (s : State) : State :=
  let sets := values.any fun p => s.presentSets p.1 p.2
  let t := values.foldl (fun s p => presentValue p.1 p.2 s) s
  if sets then examine t else t

/-- A raise of an event condition (R57 to R60, R66). -/
def takeRaise (c : Fin 24) (subject : Nat) (s : State) : State :=
  if s.raiseSets c then examine (setFlag c (some subject) s) else s

/-- The place of a condition's entry. -/
def State.entrySlot (s : State) (c : Fin 24) : Option (Fin 7) :=
  (List.finRange 7).find? fun l =>
    match s.rsc.active.get l with
    | some e => e.cond = c
    | none => false

/-- The flags of C1 to C13 are cleared (R72). DESIGN CHOICE: in ascending number, and so stand the ALARM notices (log
entry 49). -/
def clearBlackStartFlags (s : State) : State :=
  forAll 24 (fun c s => if 1 ≤ c.val ∧ c.val ≤ 13 then clearFlag c s else s) s

/-- The part of a completion that follows the removal of the entry `e` from level `l + 1` (R71, items 2
to 5). -/
def finishEntry (c : Fin 24) (o : StepOutcome) (l : Fin 7) (e : ActiveEntry) (s : State) : State :=
  let ms := s.condHoldOff c
  let due := if ms = 0 then none else some (s.dueIn ms)
  let s := modCond c (fun r => { r with holdOff := due }) s
  let s := if c = 0 ∧ o = .done then clearBlackStartFlags s else s
  let s := if c = 0 ∧ (o = .failed ∨ e.kind = .notice) then { s with rsc.suppress := true } else s
  let s := notify .completed c.val
    [sField (l.val + 1), sField e.kind.code, sField o.code, s.tick - e.since] s
  examine s

/-- RSC takes a completion report; a report for a condition without an entry is discarded (R71). -/
def complete (c : Fin 24) (o : StepOutcome) (s : State) : State :=
  match s.entrySlot c with
  | none => s
  | some l =>
    match s.rsc.active.get l with
    | none => s
    | some e => finishEntry c o l e { s with rsc.active := s.rsc.active.put l none }

/-- A mode change clears the active set without completions (R73). -/
def clearActive (s : State) : State := { s with rsc.active := Tab.const 7 none }

/-- Every hold-off timer becomes idle (R56, R60). -/
def idleHoldOffs (s : State) : State :=
  { s with rsc.rows := s.rsc.rows.mapIdx fun _ r => { r with holdOff := none } }

end Sys2Proof.Machine
end

