-- ==== Sys2Proof/Machine/Srx.lean ====
section
/-!
DEFINITION. The Sample Receiver: the receive stage, POWER frames, bus records and its two timers (R3 to R17).
-/
namespace Sys2Proof.Machine

/-- Whether changes of a head's judgement are reported: head 0, and heads of installed units (R8). -/
def State.headReported (s : State) (h : Fin 31) : Bool := h.val = 0 || s.headInstalled h

/-- The UNIT notice of a head: the new judgement and frames-since at the change (R8). -/
def notifyHead (h : Fin 31) (s : State) : State :=
  let e := s.srx.heads.get h
  notify .unit h.val [sField e.judgement.code, sField e.framesSince] s

/-- The notices of a change of the table from `old`, in ascending head number (R8). -/
def reportJudgements (old : Tab 31 HeadEntry) (s : State) : State :=
  forAll 31 (fun h s =>
    if s.headReported h && (old.get h).judgement != (s.srx.heads.get h).judgement then notifyHead h s
    else s) s

/-! ### POWER frames -/

/-- Age of a frame against the latest bus stamp, modulo 64 (R4). -/
def frameAge (latest stamp : Stamp) : Nat := (latest - stamp).toNat

/-- Whether a frame is aligned; none is while no bus stamp is known (R4). -/
def State.aligned (s : State) (stamp : Stamp) : Bool :=
  match s.srx.busStamp with
  | none => false
  | some b => frameAge b stamp ≤ 32

/-- SRX takes an aligned POWER frame (R6). -/
def takePower (h : Fin 31) (stamp : Stamp) (v : Int) (s : State) : State :=
  let old := s.srx.heads
  reportJudgements old { s with srx.heads := old.put h ⟨some v, stamp, 0, .fresh⟩ }

/-! ### Bus records -/

/-- The table after a bus record (R7). -/
def State.tableAfter (s : State) (stamp : Stamp) (v : Nat) : Tab 31 HeadEntry :=
  s.srx.heads.mapIdx fun h e =>
    if h.val = 0 then ⟨some v, stamp, 0, .fresh⟩
    else
      let since := min 255 (e.framesSince + 1)
      { e with
        framesSince := since
        judgement := if s.sysNat Sys.staleLimit < since then .stale else .fresh }

/-- UNIT_STALE: some head of an installed unit is STALE (R9). -/
def State.unitStale (s : State) : Bool :=
  (List.finRange 31).any fun h => s.headInstalled h && (s.srx.heads.get h).judgement = .stale

/-- The end of bus silence, before the record's own effects (R11). DESIGN CHOICE: C12 is presented here, and RSC takes
it after the PLANT and UNIT notices of the record (R57; log entry 35). -/
def endSilence (s : State) : State :=
  if s.srx.busSilent then
    endSilent (emit (.present [(12, false)]) { s with srx.busSilent := false })
  else s

/-- The dead timer and BUS_DEAD at a bus record (R12, R13). `last` is the kind of the record before. -/
def deadTimerAt (kind last : BusKind) (s : State) : State :=
  if kind = .dead then
    if last = .dead then s else { s with srx.deadTimer := some (s.dueIn (s.sysNat Sys.deadTime)) }
  else { s with srx.deadTimer := none, srx.busDead := false }

/-- SRX takes a bus record: its effects in the order of R14, then the pass start. DESIGN CHOICE: RSC takes the
presentations of the record after SRX has queued its UNIT notices and CTX its PLANT notice (log entry 35). -/
def takeBusRecord (kind : BusKind) (stamp : Stamp) (v : Nat) (s : State) : State :=
  let s := endSilence s
  let old := s.srx.heads
  let last := s.srx.lastKind
  let s := { s with
    srx.heads := s.tableAfter stamp v, srx.busStamp := some stamp, srx.lastKind := kind }
  let s := reportJudgements old s
  let s := { s with srx.silenceTimer := some (s.dueIn (s.sysNat Sys.busSilenceLimit)) }
  let s := deadTimerAt kind last s
  let s := emit (.present [(0, s.srx.busDead)]) s
  let s := emit (.present [(13, s.unitStale)]) s
  { s with ben.starts := s.ben.starts ++ [⟨kind, v, stamp, s.srx.heads⟩] }

/-! ### Timers -/

/-- The bus silence timer expires (R10): BUS_SILENT, head 0 STALE, the fallback, the presentation of C12. DESIGN
CHOICE: the UNIT notice and CTX's PLANT notice come first, and RSC takes C12 last (log entry 35). -/
def busFellSilent (s : State) : State :=
  let old := s.srx.heads
  let s := { s with
    srx.silenceTimer := none
    srx.busSilent := true
    srx.heads := old.modify 0 fun e => { e with judgement := .stale } }
  emit (.present [(12, true)]) (beginSilent (reportJudgements old s))

/-- The dead timer expires (R13): BUS_DEAD, told to BSS and presented to RSC (log entry 25). -/
def busDeclaredDead (s : State) : State :=
  let s := { s with srx.deadTimer := none, srx.busDead := true }
  emit (.present [(0, true)]) (emit .bssBusDead s)

/-! ### The receive stage (R17) -/

/-- A frame arrives: it is held when the stage is empty, else discarded. DESIGN CHOICE: any frame is held, and the
checks of R3 are made when SRX takes it (log entry 36). -/
def receiveBurst (burst : List Byte) (s : State) : State :=
  match s.srx.stage with
  | none => { s with srx.stage := some burst }
  | some _ => s

/-- SRX takes a frame that is held, or that arrives and is taken at once (log entry 5); another frame held
is older and stays, and the one that arrives is discarded. -/
def takeBurst (burst : List Byte) (act : Sample → State → State) (s : State) : State :=
  if s.srx.stage = none ∨ s.srx.stage = some burst then
    let s := { s with srx.stage := none }
    match sampleOf burst with
    | none => s
    | some x => act x s
  else s

/-- What a POWER_FRAME command acts on: a POWER frame that is aligned (R3, R4, R6). -/
def powerAct (x : Sample) (s : State) : State :=
  match x with
  | .power h stamp v => if s.aligned stamp then takePower h stamp v s else s
  | .bus _ _ _ => s

/-- What a BUS_RECORD command acts on: a PERIOD or DEAD frame (R3, R14). -/
def busAct (x : Sample) (s : State) : State :=
  match x with
  | .bus kind stamp v => takeBusRecord kind stamp v s
  | .power _ _ _ => s

end Sys2Proof.Machine
end

