-- ==== Sys2Proof/Machine/Sst.lean ====
section
/-!
DEFINITION. The Settings Store: mode changes with what every block does at them, WRITE and the effects at the
owners, TUNE, and the check scan (R163 to R178).
-/
namespace Sys2Proof.Machine

/-! ### Mode changes (R164 to R169) -/

/-- The cause of a MODE notice (R169, order of R193). -/
inductive ModeCause where
  | powerOn | restart | commit | engage | disengage | safeRequest | scanMismatch
  deriving DecidableEq, Repr

def ModeCause.code : ModeCause → Int
  | .powerOn => 0 | .restart => 1 | .commit => 2 | .engage => 3 | .disengage => 4 | .safeRequest => 5
  | .scanMismatch => 6

/-- The mode changes; the MODE notice carries the levels of the entries that stand (R169). -/
def changeMode (m : Mode) (cause : ModeCause) (s : State) : State :=
  notify .mode 0 [sField m.code, sField s.sst.mode.code, sField cause.code, setField s.activeLevels]
    { s with sst.mode := m }

/-- A scan starts now (R176). -/
def startScan (s : State) : State := { s with sst.scan := some ⟨s.tick, 0, crc32Init⟩ }

/-- What the blocks abandon at DISENGAGE and SAFE (R73, R94, R121, R144, R160, R51). -/
def abandonWork (s : State) : State :=
  endSilent (abortProgram (fdcAbandon (gsdAbandon (chuAbandon (idleHoldOffs (clearActive s))))))

/-- COMMIT accepted with the computed check (R165). -/
def commitImage (check : Word) (s : State) : State :=
  startScan (changeMode .check .commit { s with sst.committed := some check })

/-- CTX at ENGAGE (R53). DESIGN CHOICE: cap_pct set to 100 queues no PLANT notice, here and at RESTART; R49 names a
notice for a change made by a step (log entry 37). -/
def ctxEngage (s : State) : State :=
  beginSilent { s with
    ctx.waiting := Tab.const 8 none
    ctx.capPct := 100
    ctx.refreshCount := s.sysNat Sys.refreshPasses - 1 }

/-- ENGAGE accepted: each block starts RUN, then RSC examines acceptance (R166). -/
def engageRun (s : State) : State :=
  emit .examine (fdcEngage (gsdEngage (ctxEngage (benEngage (changeMode .run .engage s)))))

/-- DISENGAGE accepted (R167). -/
def disengageRun (s : State) : State :=
  emptyPending (clearForcedZero (abandonWork (changeMode .check .disengage s)))

/-- The entry to SAFE (R168, R52, R56). -/
def enterSafe (cause : ModeCause) (s : State) : State :=
  let s := changeMode .safe cause s
  let s := abandonWork { s with sst.scan := none, rsc.auto := false }
  beginFault (clearForcedZero s)

/-- CTX at RESTART (R53): the plant rows and a frame that has started stay; no notice for cap_pct (DESIGN CHOICE,
log entry 37). -/
def ctxRestart (s : State) : State :=
  let s := clearForcedZero (endSilent s)
  { s with ctx := { Ctx.initial with plants := s.ctx.plants, line := s.ctx.line } }

/-- RESTART (R164): the mode, and every block by its own table. DESIGN CHOICE: the heads that R5 makes STALE queue no
UNIT notice (R8; log entry 34). -/
def restartPart (s : State) : State :=
  let s := changeMode .setup .restart s
  let s := { s with
    sst.committed := none, sst.scan := none, sst.settingsFault := false
    srx := Srx.initial
    rsc := Rsc.initial }
  ctxRestart (bssRestart (fdcAbandon (gsdAbandon (chuRestart (benRestart s)))))

/-! ### WRITE (R171 to R173) -/

/-- One item applied to a working copy; f_nom also sets the four thresholds (R35, R171). -/
def applyItem (m : Image) (k : ItemName) (v : Int) : Image :=
  let m := m.put k v
  if k = .sys Sys.fNom then
    let at60 := v = 60000
    let m := m.put (.sys Sys.ufDeep) (if at60 then 57000 else 47500)
    let m := m.put (.sys Sys.ufLow) (if at60 then 58560 else 48800)
    let m := m.put (.sys Sys.ofThreshold) (if at60 then 61800 else 51500)
    m.put (.sys Sys.restoreFMin) (if at60 then 59760 else 49800)
  else m

/-- The items of a request applied in order to a working copy (R171). -/
def applyItems (m : Image) (items : List RawItem) : Image :=
  items.foldl (fun m r => match r.name with | some k => applyItem m k r.value | none => m) m

/-- The list an item belongs to: shed lists 0 to 3, and 4 for the merit list (R173). -/
def itemList : ItemName → Option (Fin 5)
  | .shed l _ => some ⟨l.val, by omega⟩
  | .merit _ => some 4
  | _ => none

/-- The length item and the entry items of a list. -/
def listItems (m : Image) (key : Fin 5) : Int × List Int :=
  if h : key.val < 4 then
    (m.get (.shed ⟨key.val, h⟩ 0), (List.finRange 17).tail.map fun f => m.get (.shed ⟨key.val, h⟩ f))
  else (m.get (.merit 0), (List.finRange 7).tail.map fun f => m.get (.merit f))

/-- Whether an entry names a feeder installed in the copy, or a set (R173). -/
def entryOk (m : Image) (key : Fin 5) (v : Int) : Bool :=
  if key.val < 4 then
    if h : v.toNat - 1 < 16 then 1 ≤ v && m.get (.feeder ⟨v.toNat - 1, h⟩ 0) = 1 else false
  else between 1 6 v

/-- The rules of a list (R173). -/
def listOk (m : Image) (key : Fin 5) : Bool :=
  let (len, entries) := listItems m key
  let used := entries.take len.toNat
  between 0 entries.length len && used.all (entryOk m key) && decide used.Nodup &&
    (entries.drop len.toNat).all fun v => v = 0

/-- Whether an item of a request touched a list. -/
def RawItem.touches (r : RawItem) (key : Fin 5) : Bool := (r.name.bind itemList) = some key

/-- The position of the last item that touched a list. -/
def lastTouch (items : List RawItem) (key : Fin 5) : Nat :=
  (((items.zipIdx).filter fun p => p.1.touches key).getLast?.map Prod.snd).getD 0

/-- Whether an item is refused for its value or because it is fixed (R171). -/
def RawItem.barred (r : RawItem) : Bool :=
  match r.name with
  | some k => k.fixed || !k.inRange r.value
  | none => true

/-- What a WRITE in SETUP gives: the index of the refused item, or the new image (R171; log entry 13). -/
def writeImage (m : Image) (items : List RawItem) : Except Nat Image :=
  match items.findIdx? fun r => r.name.isNone with
  | some i => .error i
  | none =>
    match items.findIdx? RawItem.barred with
    | some i => .error i
    | none =>
      let copy := applyItems m items
      match (List.finRange 5).find? fun key =>
          items.any (fun r => r.touches key) && !listOk copy key with
      | some key => .error (lastTouch items key)
      | none => .ok copy

/-- The items whose value a WRITE changed, each at its last mention (R172; log entry 24). -/
def changedItems (old new : Image) : List ItemName → List ItemName
  | [] => []
  | k :: rest =>
    if k ∈ rest ∨ old.get k = new.get k then changedItems old new rest
    else k :: changedItems old new rest

/-- The row of PLANT an item belongs to. -/
def itemPlant : ItemName → Option (Fin 8)
  | .plant p _ => some p
  | _ => none

/-- A condition's mode was written: EDGE to HOLD clears the flag, and the latch follows a change of truth
(R61, R74; log entry 22). `wasHold` and `before` are the mode and the truth before the WRITE. -/
def modeWritten (c : Fin 24) (wasHold before : Bool) (s : State) : State :=
  let s := if !wasHold && s.condHold c then
      modCond c (fun r => { r with flag := false, raisedBy := none }) s
    else s
  if s.truth c = before then s else moveLatch c (s.truth c) s

/-- The effect at the owner of one changed item (R172). `t` is the state before the WRITE, `later` the
changed items that follow; a plant's row takes its items as one change, at the last of them. A WRITE sets a plant
not installed when it changes the stored item and the item then reads no (R44; DEDUCED, log entry 47). -/
def itemWritten (t : State) (k : ItemName) (later : List ItemName) (s : State) : State :=
  match k with
  | .sys f => if f = Sys.rocofWindow then { s with ben.ring := [] } else s
  | .plant p _ =>
    if later.any fun k => itemPlant k = some p then s
    else
      let written := t.sst.image.get (.plant p 0) != s.sst.image.get (.plant p 0)
      plantWritten p (written && !s.plantInstalled p) s
  | .gen g f => if f.val = 0 then gsdEvent (mapSet g) s else s
  | .feeder i f => if f.val = 0 then fdcEvent (mapFeeder i) s else s
  | .cond c f =>
    if f.val = 2 then modeWritten c (t.condHold c) (t.truth c) s
    else if f.val = 5 then routeChanged c (t.condRoute c) (s.condRoute c) s
    else s
  | .shed _ _ => s
  | .merit _ => s

/-- The changed items are handed to their owners in request order (R172). DESIGN CHOICE: each FEEDER installed item is
an event of its own at FDC, so that the FEEDER notices of one WRITE stand in request order and not in the ascending
feeder number that R127 gives for one event (log entry 51). -/
def itemsWritten (t : State) : List ItemName → State → State
  | [], s => s
  | k :: rest, s => itemsWritten t rest (itemWritten t k rest s)

/-- A WRITE is accepted: the copy becomes the image and the changed items are handed on (R171, R172). -/
def takeWrite (items : List RawItem) (copy : Image) (s : State) : State :=
  itemsWritten s (changedItems s.sst.image copy (items.filterMap RawItem.name))
    { s with sst.image := copy }

/-! ### TUNE (R174) -/

/-- The effect at the owner of a tuned item (R66, R76, R174). -/
def itemTuned (t : State) (k : ItemName) (s : State) : State :=
  match k with
  | .cond c f =>
    if f.val < 2 then emit .examine s
    else if f.val = 5 then routeChanged c (t.condRoute c) (s.condRoute c) s
    else s
  | _ => s

/-- A TUNE is accepted: image, committed check and a new scan; the owner acts after the reply (R174). DESIGN CHOICE:
the check is computed over the image as it stands also when the item has the value already (log entry 50). -/
def takeTune (k : ItemName) (v : Int) (s : State) : State :=
  let m := s.sst.image.put k v
  startScan { s with sst.image := m, sst.committed := some (checkOf m) }

/-! ### The scan (R176, R177) -/

/-- The tick at which item `k` of a scan is read (R176). -/
def Scan.itemDue (c : Scan) (k : Nat) : Tick :=
  c.start + BitVec.ofNat 32 (k * Config.scanMs / checkOrder.length)

/-- The tick at which a scan completes (R176). -/
def Scan.due (c : Scan) : Tick := c.start + BitVec.ofNat 32 Config.scanMs

/-- A scan after it reads some items of an image. -/
def Scan.readItems (c : Scan) (m : Image) (items : List ItemName) : Scan :=
  { c with
    position := c.position + items.length
    crc := items.foldl (fun reg k => crc32Run reg (itemBytes k (m.get k))) c.crc }

/-- The next item of the check order is read when its time comes (R176). -/
def readScanItem (s : State) : State :=
  match s.sst.scan with
  | none => s
  | some c =>
    match checkOrder[c.position]? with
    | none => s
    | some k =>
      let s := advanceTo (c.itemDue c.position) s
      { s with sst.scan := some (c.readItems s.sst.image [k]) }

/-- A mismatch: SETTINGS_FAULT, SAFE, and the latch of SETTINGS_FAULT (R177). DESIGN CHOICE: the ALARM notice of the
latch stands after the notices of every block (log entry 19). -/
def scanMismatch (s : State) : State :=
  let s := enterSafe .scanMismatch { s with sst.settingsFault := true }
  setFaultLatch s.rsc.faultLatch.onTrue s

/-- The scan completes: the items still to be read are read, and the result is compared (R176; log entry
30). -/
def completeScan (s : State) : State :=
  match s.sst.scan with
  | none => s
  | some c =>
    let s := advanceTo c.due s
    let c := c.readItems s.sst.image (checkOrder.drop c.position)
    if s.sst.committed = some (crc32Final c.crc) then startScan s else scanMismatch s

end Sys2Proof.Machine
end

