-- ==== Sys2Proof/Machine/Cascade.lean ====
section
/-!
DEFINITION. Hand-overs between blocks: each is an event of its own at the block that takes it, taken in the
order the sender made them (R196; log entry 6).
-/
namespace Sys2Proof.Machine

/-- A block starts the response of an acceptance (R69, R82, R115, R116, R137, R148). -/
def startResponse (c : Fin 24) (k : ResponseKind) (s : State) : State :=
  match k with
  | .notice => s
  | .chains => chainsResponse c s
  | .startNext => startNext c s
  | .stopNext => stopNext c s
  | .restoreNext => restoreNext c s
  | .blackStart => startProgram s

/-- The receiving block takes a hand-over. The end of a trip of the clear concerns no rule of BSS and is
discarded (R161). -/
def deliver (m : Handover) (s : State) : State :=
  match m with
  | .present vs => present vs s
  | .raise c subj => takeRaise c subj s
  | .complete _ c o => complete c o s
  | .examine => examine s
  | .startResponse c k => startResponse c k s
  | .chainUnitEnd n u ok => unitEnded n u ok s
  | .bssSetMoved g old new => setMoved g old new s
  | .bssStartEnd g ok => startEnded g ok s
  | .bssSettled => clearSettled s
  | .bssTripEnd _ _ => s
  | .bssCloseEnd f _ => closeEnded f s
  | .bssPass => bssPass s
  | .bssBusDead => busDied s

/-! ### Senders, receivers and order -/

/-- The block that makes a hand-over. SRX presents C0, C12 and C13, BEN the other values (R57); GSD raises C5 and C7,
FDC C8, CHU the others (R57, R91). -/
def Handover.sender : Handover → Block
  | .present vs => if vs.any fun p => p.1 = 0 || p.1 = 12 || p.1 = 13 then .srx else .ben
  | .raise c _ => if c = 5 || c = 7 then .gsd else if c = 8 then .fdc else .chu
  | .complete reporter _ _ => reporter
  | .examine => .sst
  | .startResponse _ _ => .rsc
  | .chainUnitEnd _ (.set _) _ => .gsd
  | .chainUnitEnd _ (.feeder _) _ => .fdc
  | .bssSetMoved _ _ _ => .gsd
  | .bssStartEnd _ _ => .gsd
  | .bssSettled => .fdc
  | .bssTripEnd _ _ => .fdc
  | .bssCloseEnd _ _ => .fdc
  | .bssPass => .ben
  | .bssBusDead => .srx

/-- The block a response kind is started at (R69). -/
def ResponseKind.owner : ResponseKind → Block
  | .notice => .rsc
  | .chains => .chu
  | .startNext => .gsd
  | .stopNext => .gsd
  | .restoreNext => .fdc
  | .blackStart => .bss

/-- The block that takes a hand-over. -/
def Handover.receiver : Handover → Block
  | .present _ => .rsc
  | .raise _ _ => .rsc
  | .complete _ _ _ => .rsc
  | .examine => .rsc
  | .startResponse _ k => k.owner
  | .chainUnitEnd _ _ _ => .chu
  | .bssSetMoved _ _ _ => .bss
  | .bssStartEnd _ _ => .bss
  | .bssSettled => .bss
  | .bssTripEnd _ _ => .bss
  | .bssCloseEnd _ _ => .bss
  | .bssPass => .bss
  | .bssBusDead => .bss

/-- Whether `m` may not be taken before `r`, made earlier by the same sender for the same receiver (R196). -/
def Handover.follows (m r : Handover) : Bool := m.sender = r.sender && m.receiver = r.receiver

/-- New hand-overs join those that still wait: each stands as far in front as it may, which is before all of them or
right behind the last one that it follows (R196; log entry 6). -/
def queueUp (new : List Handover) : List Handover → List Handover
  | [] => new
  | r :: rest =>
    (new.filter fun m => !(r :: rest).any m.follows) ++
      r :: queueUp (new.filter fun m => (r :: rest).any m.follows) rest

/-- The oldest hand-over is taken; what it causes joins those that still wait. -/
def deliverNext (s : State) : State :=
  match s.handovers with
  | [] => s
  | m :: rest =>
    let t := deliver m { s with handovers := [] }
    { t with handovers := queueUp t.handovers rest }

/-- Hand-overs are taken until none waits, at most `n` of them. -/
def drain : Nat → State → State
  | 0, s => s
  | n + 1, s => if s.handovers.isEmpty then s else drain n (deliverNext s)

/-- An event with the cascade it causes. -/
def runEvent (f : State → State) (s : State) : State := drain Config.cascadeFuel (f s)

end Sys2Proof.Machine
end

