-- ==== Sys2Proof/Machine/Operands.lean ====
section
/-!
DEFINITION. The forms a request's operands take (R181, R182, R193): the taking of a held frame, its body length,
its parameters and the optional expected revision; and the level at which an event command acts.
-/
namespace Sys2Proof.Machine

/-- What a command answers. -/
abbrev Answer := Host.Outcome State Fault Refusal

/-- How a request is answered: a status, and the bytes of its values. -/
abbrev Reply := Status → List Byte → State → State

/-- Parameter `i` of a body, one byte (R193). -/
def param (body : List Byte) (i : Nat) : Nat := (body.getD i 0).toNat

/-- The 4-byte parameter at offset `i`. -/
def param32 (body : List Byte) (i : Nat) : Word :=
  word32 (body.getD i 0) (body.getD (i + 1) 0) (body.getD (i + 2) 0) (body.getD (i + 3) 0)

/-- The optional expected revision of a form whose parameters take `n` bytes (R182). -/
def expected (n : Nat) (body : List Byte) : Option Revision :=
  if body.length = n + 2 then some (word16 (body.getD n 0) (body.getD (n + 1) 0)) else none

/-- Whether an expected revision is given and differs from the row's (R182). -/
def stale (e : Option Revision) (row : Revision) : Bool :=
  match e with
  | none => false
  | some r => r != row

/-- A unit number 1 to `n` as a row, or none (R2). -/
def unitRow (n k : Nat) : Option (Fin n) := if h : 1 ≤ k ∧ k - 1 < n then some ⟨k - 1, h.2⟩ else none

/-- A condition, chain or list number 0 to `n − 1`, or none (R2). -/
def numberRow (n k : Nat) : Option (Fin n) := if h : k < n then some ⟨k, h⟩ else none

/-- HLC judges a taken frame and its owner acts, with the cascade of the act (R181). -/
def serveRequest (kind tag : Byte) (fits : Bool) (act : Reply → State → State) (s : State) : State :=
  if fits then runEvent (act (answer kind tag)) s else answer kind tag .length [] s

/-- HLC takes a request (R180, R181): the oldest held frame, or one that arrives while none is held. A
reply that waits begins to go out first. A frame that is not the oldest held is not taken (log entry 4). -/
def takeRequest (kind tag : Byte) (body : List Byte) (fits : Bool) (act : Reply → State → State)
    (s : State) : State :=
  if s.resetLow then s
  else
    match s.hlc.slots with
    | [] => serveRequest kind tag fits act (sendReply s)
    | f :: rest =>
      if f = ⟨kind, tag, body⟩ then
        serveRequest kind tag fits act (sendReply { s with hlc.slots := rest })
      else s

/-- An event other than a request, with its cascade; none is taken while RESET_N is low (R163). -/
def takeEvent (f : State → State) (s : State) : State := if s.resetLow then s else runEvent f s

/-- An input changes its level and its block acts; while RESET_N is low the level alone changes. -/
def takeInput (level : State → State) (f : State → State) (s : State) : State :=
  if s.resetLow then level s else runEvent f (level s)

end Sys2Proof.Machine
end

