-- ==== Sys2Proof/Machine/BalanceEvents.lean ====
section
/-!
DEFINITION. The balance pass, the setpoint link and the ticks of the fallbacks (R18, R46, R51, R52).
-/
namespace Sys2Proof.Machine

/-- The setpoint link is free: the ceiling of the lowest-numbered plant that waits goes out (R46). DESIGN CHOICE: also
one of a plant that a storage fault has made not installed while it waited (R170; log entry 56). -/
def sendCeiling (s : State) : State :=
  match s.nextCeiling with
  | none => s
  | some p =>
    match s.ctx.waiting.get p with
    | none => s
    | some c => startCeiling p c s

/-- The fallback tick of BUS_SILENT, when its time has come (R51). -/
def silentTickDue (s : State) : State :=
  match s.ctx.silent with
  | none => s
  | some run => silentTick run (advanceTo run.due s)

/-- The fallback tick of SETTINGS_FAULT, when its time has come (R52). -/
def faultTickDue (s : State) : State :=
  match s.ctx.fault with
  | none => s
  | some run => faultTick run (advanceTo run.due s)

def execBalancePass (s : State) : Answer := .next (takeEvent takeNextPass s)

def execCeilingFrameSend (s : State) : Answer := .next (takeEvent sendCeiling s)

def execSilentFallbackTick (s : State) : Answer := .next (takeEvent silentTickDue s)

def execFaultFallbackTick (s : State) : Answer := .next (takeEvent faultTickDue s)

end Sys2Proof.Machine
end

