-- ==== Sys2Proof/Machine/BlackStartEvents.lean ====
section
/-!
DEFINITION. The timers of BSS (R152, R153, R155, R157).
-/
namespace Sys2Proof.Machine

def execFirstCloseTimerExpiry (s : State) : Answer :=
  .next (takeEvent (expire s.bss.firstCloseTimer firstCloseExpired) s)

def execEnergizeTimerExpiry (s : State) : Answer :=
  .next (takeEvent (expire s.bss.energizeTimer energizeExpired) s)

def execEnergizeLimitTimerExpiry (s : State) : Answer :=
  .next (takeEvent (expire s.bss.limitTimer limitExpired) s)

def execSettleTimerExpiry (s : State) : Answer :=
  .next (takeEvent (expire s.bss.settleTimer settleExpired) s)

end Sys2Proof.Machine
end

