-- ==== Sys2Proof/Machine/ChainRequests.lean ====
section
/-!
DEFINITION. The requests owned by CHU (R79, R80, R93).
-/
namespace Sys2Proof.Machine

/-- The chain kind of a code (R193). -/
def chainKindOf (n : Nat) : Option ChainKind :=
  match n with
  | 0 => some .shed | 1 => some .restore | 2 => some .start | 3 => some .stop | 4 => some .capDown
  | 5 => some .capUp | _ => none

/-- The chain mode of a code (R193). -/
def chainModeOf (n : Nat) : Option ChainMode :=
  match n with
  | 0 => some .single | 1 => some .burst | 2 => some .count | _ => none

/-- The trigger of a code: none (0xFF), C1 to C23, or refused (R79, R193). -/
def triggerOf (n : Nat) : Option (Option (Fin 24)) :=
  if n = 255 then some none
  else if n = 0 then none
  else (numberRow 24 n).map some

/-- A shed list number; another value is read for SHED alone and refused there (R79). -/
def listNumber (n : Nat) : Fin 4 := ⟨n % 4, by omega⟩

/-- BIND of a chain with its codes decoded: the cases of R79 from the list on. -/
def bindDecoded (n : Fin 6) (trigger : Option (Fin 24)) (kind : ChainKind) (mode : ChainMode)
    (body : List Byte) (reply : Reply) (s : State) : State :=
  let list := param body 3
  let count := param body 4
  let size := param body 6
  let shed := kind = .shed
  if shed ∧ 3 < list then reply .range [] s
  else if (kind = .capDown ∨ kind = .capUp) ∧ (size < 1 ∨ 100 < size) then reply .range [] s
  else if 16 < count then reply .range [] s
  else if mode = .burst ∧ ¬(kind = .shed ∨ kind = .restore) then reply .range [] s
  else if shed ∧ count = 0 ∧ (s.shedList (listNumber list)).isEmpty then reply .range [] s
  else if stale (expected 7 body) (s.chain n).revision then
    reply .staleRevision (bytes16 (s.chain n).revision) s
  else if (s.chain n).flight.isSome then reply .busy [] s
  else reply .ok [] (bindChain n trigger kind (listNumber list) count mode size s)

/-- BIND (R79). -/
def bindAct (body : List Byte) (reply : Reply) (s : State) : State :=
  match numberRow 6 (param body 0), triggerOf (param body 1), chainKindOf (param body 2),
      chainModeOf (param body 5) with
  | some n, some trigger, some kind, some mode => bindDecoded n trigger kind mode body reply s
  | _, _, _, _ => reply .range [] s

/-- UNBIND (R80). -/
def unbindAct (body : List Byte) (reply : Reply) (s : State) : State :=
  match numberRow 6 (param body 0) with
  | none => reply .range [] s
  | some n =>
    if stale (expected 1 body) (s.chain n).revision then
      reply .staleRevision (bytes16 (s.chain n).revision) s
    else if (s.chain n).flight.isSome then reply .busy [] s
    else reply .ok [] (unbindChain n s)

/-- STEP: the reply gives the units acted on and the count after the start of the step (R93). -/
def stepAct (body : List Byte) (reply : Reply) (s : State) : State :=
  match numberRow 6 (param body 0) with
  | none => reply .range [] s
  | some n =>
    if !s.inRun then reply .mode [] s
    else if s.level7 then reply .busy [] s
    else if (s.chain n).count = 0 then reply .state [] s
    else if (s.chain n).flight.isSome then reply .busy [] s
    else
      let r := takeStep n none s
      reply .ok (sBytes [r.2, (r.1.chain n).count]) r.1

def execBind (tag : Byte) (body : List Byte) (s : State) : Answer :=
  .next (takeRequest 0x0D tag body (body.length = 7 || body.length = 9) (bindAct body) s)

def execUnbind (tag : Byte) (body : List Byte) (s : State) : Answer :=
  .next (takeRequest 0x0E tag body (body.length = 1 || body.length = 3) (unbindAct body) s)

def execStep (tag : Byte) (body : List Byte) (s : State) : Answer :=
  .next (takeRequest 0x0F tag body (body.length = 1) (stepAct body) s)

end Sys2Proof.Machine
end

