-- ==== Sys2Proof/Machine/ConditionRequests.lean ====
section
/-!
DEFINITION. The requests owned by RSC, and the expiry of a hold-off timer (R60, R62, R63, R65, R75).
-/
namespace Sys2Proof.Machine

/-- AUTO: turned on from off, RSC examines acceptance after the reply (R65). -/
def autoAct (body : List Byte) (reply : Reply) (s : State) : State :=
  match param body 0 with
  | 0 => reply .ok [] { s with rsc.auto := false }
  | 1 =>
    let t := reply .ok [] { s with rsc.auto := true }
    if s.rsc.auto then t else examine t
  | _ => reply .range [] s

/-- FORCE (R62). -/
def forceAct (body : List Byte) (reply : Reply) (s : State) : State :=
  match numberRow 24 (param body 0) with
  | none => reply .range [] s
  | some c =>
    if c = 0 then reply .range [] s
    else if (s.condRow c).holdOff.isSome then reply .state [] s
    else examine (reply .ok [] (setFlag c none s))

/-- CLEAR (R63). -/
def clearAct (body : List Byte) (reply : Reply) (s : State) : State :=
  match numberRow 24 (param body 0) with
  | none => reply .range [] s
  | some c => reply .ok [] (clearFlag c s)

/-- ACK of ALL: every latch in ascending number, SETTINGS_FAULT as 24 (R75). -/
def ackAll (s : State) : State := ackFaultLatch (forAll 24 ackLatch s)

/-- ACK (R75). -/
def ackAct (body : List Byte) (reply : Reply) (s : State) : State :=
  match numberRow 24 (param body 0) with
  | some c => reply .ok [] (ackLatch c s)
  | none =>
    if param body 0 = 24 then reply .ok [] (ackFaultLatch s)
    else if param body 0 = 255 then reply .ok [] (ackAll s)
    else reply .range [] s

/-- A hold-off timer reaches its end: it becomes idle, and a set flag calls for an examination (R60). -/
def holdOffEnded (c : Fin 24) (s : State) : State :=
  let t := modCond c (fun r => { r with holdOff := none }) s
  if (s.condRow c).flag then examine t else t

def execAuto (tag : Byte) (body : List Byte) (s : State) : Answer :=
  .next (takeRequest 0x0A tag body (body.length = 1) (autoAct body) s)

def execForce (tag : Byte) (body : List Byte) (s : State) : Answer :=
  .next (takeRequest 0x0B tag body (body.length = 1) (forceAct body) s)

def execClear (tag : Byte) (body : List Byte) (s : State) : Answer :=
  .next (takeRequest 0x0C tag body (body.length = 1) (clearAct body) s)

def execAck (tag : Byte) (body : List Byte) (s : State) : Answer :=
  .next (takeRequest 0x15 tag body (body.length = 1) (ackAct body) s)

def execHoldOffExpiry (c : Fin 24) (s : State) : Answer :=
  .next (takeEvent (expire (s.condRow c).holdOff (holdOffEnded c)) s)

end Sys2Proof.Machine
end

