-- ==== Sys2Proof/Machine/FeederEvents.lean ====
section
/-!
DEFINITION. The inputs and timers of the feeders (R129, R130, R132, R133, R143).
-/
namespace Sys2Proof.Machine

/-- FDC at a change of BREAKER: in RUN the event of the rule, by the feeder's state, which is OUT_OF_SERVICE for a feeder
not installed or out of service, where no change is acted on (R129, R132, R133, R140); outside RUN the mapping (R143).
DESIGN CHOICE: in RUN the installed item is not read, so that a feeder that a storage fault makes not installed in another
state (R170) follows its BREAKER by that state (log entry 52). -/
def feederInputActs (inRun : Fin 16 → State → State) (f : Fin 16) (s : State) : State :=
  fdcEvent (if s.inRun then inRun f else mapFeeder f) s

/-- BREAKER of feeder `f` takes another level, and FDC acts (log entry 3). -/
def feederInput (level : Bool) (inRun : Fin 16 → State → State) (f : Fin 16) (s : State) : State :=
  if (s.feederRec f).breaker = level then s
  else takeInput (modFeeder f fun r => { r with breaker := level }) (feederInputActs inRun f) s

def execFeederBreakerFalls (f : Fin 16) (s : State) : Answer :=
  .next (feederInput false feederFallen f s)

def execFeederBreakerRises (f : Fin 16) (s : State) : Answer :=
  .next (feederInput true feederRisen f s)

/-- The breaker timer of a feeder in TRIPPING or CLOSING expires (R130); it runs in no other state (R126). -/
def breakerTimer (f : Fin 16) (s : State) : State :=
  if (s.feederRec f).state = .tripping || (s.feederRec f).state = .closing then
    takeEvent (expire (s.feederRec f).timer (fdcEvent (breakerExpired f))) s
  else s

def execBreakerTimerExpiry (f : Fin 16) (s : State) : Answer := .next (breakerTimer f s)

end Sys2Proof.Machine
end

