-- ==== Sys2Proof/Machine/Hlc.lean ====
section
/-!
DEFINITION. The Host Link Controller: framing, the transmitter, and the values of IDENTIFY, READ, STATUS and PASS
(R16, R54, R77, R81, R123, R145, R162, R178 to R190, R193).
-/
namespace Sys2Proof.Machine

/-! ### Receiving (R179, R180) -/

/-- The body length an assembled frame announces. -/
def announced (p : List Byte) : Nat := (p.getD 1 0).toNat

/-- Whether the CRC-16 of a complete frame matches (R192). -/
def crcMatches (p : List Byte) : Bool :=
  let n := announced p
  bytes16 (crc16 (p.tail.take (3 + n))) = p.drop (4 + n)

/-- The request a complete frame holds. -/
def frameOf (p : List Byte) : HostFrame :=
  ⟨p.getD 2 0, p.getD 3 0, (p.drop 4).take (announced p)⟩

/-- A complete frame takes a free slot, or is discarded (R179, R180). -/
def placeFrame (p : List Byte) (s : State) : State :=
  if crcMatches p && s.hlc.slots.length < Config.receiveSlots then
    { s with hlc.slots := s.hlc.slots ++ [frameOf p] }
  else s

/-- HLC holds the characters of a frame that goes on; the line may be idle until the due tick (R179). -/
def holdPartial (chars : List Byte) (s : State) : State :=
  { s with hlc.partialFrame := some ⟨chars, s.dueIn Config.characterIdleMs⟩ }

/-- The characters received so far are discarded, and HLC hunts for SYNC (R179). -/
def dropPartial (s : State) : State := { s with hlc.partialFrame := none }

/-- The characters of the frame that the next character joins: none while HLC hunts, and none when the line has been
idle for too long (R179). -/
def joinable (s : State) : List Byte :=
  match s.hlc.partialFrame with
  | none => []
  | some p => if s.remaining p.due = 0 then [] else p.chars

/-- One character arrives on the host line (R179). -/
def hostChar (s : State) (c : Byte) : State :=
  match joinable s with
  | [] => if c = Config.syncByte then holdPartial [c] s else dropPartial s
  | p =>
    let q := p ++ [c]
    if q.length = 2 ∧ Config.maxBody < announced q then dropPartial s
    else if 2 ≤ q.length ∧ q.length = 6 + announced q then placeFrame q (dropPartial s)
    else holdPartial q s

/-- Characters arrive one after another. -/
def hostChars (cs : List Byte) (s : State) : State := cs.foldl hostChar s

/-! ### Sending (R183, R189) -/

/-- The transmitter begins the oldest notice, when no reply waits: lost flag and sequence number are written,
then the flag is cleared and the number increased (R183, R189). -/
def sendNotice (s : State) : State :=
  match s.hlc.reply, s.hlc.notices with
  | none, n :: rest =>
    { s with
      hlc.notices := rest
      hlc.lost := false
      hlc.sequence := s.hlc.sequence + 1
      hlc.line := some (hostFrameBytes
        ⟨n.kind.code, 0, noticeBody s.hlc.lost s.hlc.sequence n⟩) }
  | _, _ => s

/-! ### IDENTIFY (R184) -/

/-- The values of IDENTIFY. -/
def identifyBytes (s : State) : List Byte :=
  bytes16 (BitVec.ofNat 16 Config.vendorCode) ++ bytes16 (BitVec.ofNat 16 Config.partCode) ++
    [byteOf Config.siliconRevision] ++ [6, 8, 16, 24, 6, 4] ++ [byteOf s.lineRate.val]

/-! ### READ (R185): one record of each class -/

/-- A timer: the remaining ms, or absent when idle (log entry 11). -/
def timerBytes (s : State) (t : Option Tick) : List Byte :=
  optBytes (t.map fun due => (s.remaining due : Int))

/-- Flags and levels as fields, 1 for set or high (log entry 55). -/
def flagBytes (bs : List Bool) : List Byte := sBytes (bs.map boolInt)

/-- HEAD (R16). -/
def headRecord (s : State) (h : Fin 31) : List Byte :=
  let e := s.srx.heads.get h
  sBytes [h.val] ++ optBytes e.value ++ sBytes [e.stamp.toNat, e.framesSince, e.judgement.code] ++
    if h.val = 0 then sBytes [s.srx.lastKind.code] else []

/-- SET (R123). -/
def setRecord (s : State) (g : Fin 6) : List Byte :=
  let r := s.setRec g
  sBytes [boolInt (s.setInstalled g), s.setRated g, s.setFloorPct g, boolInt (s.setCapable g),
      r.state.code, r.attempts] ++
    timerBytes s r.timer ++ flagBytes [r.retry] ++ optUBytes r.onlineSince ++ flagBytes [r.minRunMet] ++
    optBytes (r.origin.map Origin.code) ++ optBytes (r.stopOwner.map Origin.code) ++
    bytes32 r.runSeconds ++ flagBytes [r.outOfService] ++ sBytes [r.revision.toNat] ++
    flagBytes [r.running, r.breaker, r.ready, s.startLine g, s.stopLine g, s.deadbusLine g]

/-- PLANT (R54). -/
def plantRecord (s : State) (p : Fin 8) : List Byte :=
  let r := s.plantRow p
  sBytes [boolInt (s.plantInstalled p), s.plantCapacity p, boolInt (s.plantFlex p),
      boolInt r.inService] ++ optBytes r.lastSent ++ sBytes [r.revision.toNat]

/-- FEEDER (R145). -/
def feederRecord (s : State) (f : Fin 16) : List Byte :=
  let r := s.feederRec f
  sBytes [boolInt (s.feederInstalled f), boolInt (s.feederEssential f), s.feederRank f,
      s.feederNominal f, r.state.code] ++
    optBytes (r.origin.map Origin.code) ++ timerBytes s r.timer ++ optBytes r.preShed ++
    flagBytes [r.outOfService] ++ sBytes [r.revision.toNat] ++
    flagBytes [s.tripLine f, s.closeLine f, r.breaker] ++ sBytes [s.need f]

/-- CHAIN (R81). A trigger of none has the absent code (log entry 11). -/
def chainRecord (s : State) (n : Fin 6) : List Byte :=
  let ch := s.chain n
  optBytes (ch.trigger.map fun c => (c.val : Int)) ++ sBytes [ch.kind.code] ++
    optBytes (ch.list.map fun l => (l.val : Int)) ++ sBytes [ch.cursor, ch.count, ch.mode.code] ++
    optBytes (ch.stepSize.map Int.ofNat) ++ flagBytes [ch.flight.isSome] ++
    sBytes [ch.revision.toNat]

/-- COND (R77). The last presented value is absent for event and user conditions. -/
def condRecord (s : State) (c : Fin 24) : List Byte :=
  let r := s.condRow c
  sBytes ((List.finRange 6).map fun f => s.setting (.cond c f)) ++ flagBytes [r.flag] ++
    optBytes (if isPresented c then some (boolInt r.last) else none) ++ timerBytes s r.holdOff ++
    sBytes [r.latch.code]

/-- SHEDLIST (R145): the entries in list order. -/
def shedRecord (s : State) (l : Fin 4) : List Byte :=
  listBytes ((s.shedList l).map fun f => (f.val + 1 : Int))

/-- ITEM (R178): the item in the 8-byte form of R195, with the value as the image holds it. -/
def itemRecord (s : State) (k : ItemName) : List Byte := itemBytes k (s.sst.image.get k)

/-- The records that fit in `room` bytes, from the front, whole (R185). -/
def fitting : Nat → List (List Byte) → List (List Byte)
  | _, [] => []
  | room, r :: rest => if r.length ≤ room then r :: fitting (room - r.length) rest else []

/-- Bytes of a reply body left for records: status, class, first and count take four (R185, R193). -/
def recordRoom : Nat := Config.maxBody - 4

/-- The OK reply of READ. -/
def readReply (cls first : Nat) (records : List (List Byte)) (reply : Reply) (s : State) : State :=
  let rs := fitting recordRoom records
  reply .ok ([byteOf cls, byteOf first, byteOf rs.length] ++ rs.flatten) s

/-- The records `first` to `last` of a class numbered from `base` with `n` members, or none where the range
is refused. -/
def classRecords {n : Nat} (base : Nat) (record : Fin n → List Byte) (first last : Nat) :
    Option (List (List Byte)) :=
  if base ≤ first ∧ first ≤ last ∧ last < base + n then
    some (((List.finRange n).filter fun i => first ≤ base + i.val ∧ base + i.val ≤ last).map record)
  else none

/-- All present, or none. -/
def allPresent {α : Type} : List (Option α) → Option (List α)
  | [] => some []
  | none :: _ => none
  | some k :: rest => (allPresent rest).map (k :: ·)

/-- The items of a row from field `first` to field `last`, or none where one does not exist (R185). -/
def rowItems (table row first last : Nat) : Option (List ItemName) :=
  if first ≤ last then
    allPresent ((List.range (last - first + 1)).map fun i => itemOfCodes table row (first + i))
  else none

/-- The records a READ body asks for (R185, R193). -/
def readRecords (s : State) (body : List Byte) : Option (List (List Byte)) :=
  let first := param body 1
  let last := param body 2
  match param body 0 with
  | 0 => classRecords 0 (headRecord s) first last
  | 1 => classRecords 1 (setRecord s) first last
  | 2 => classRecords 1 (plantRecord s) first last
  | 3 => classRecords 1 (feederRecord s) first last
  | 4 => classRecords 0 (chainRecord s) first last
  | 5 => classRecords 0 (condRecord s) first last
  | 6 => classRecords 0 (shedRecord s) first last
  | 7 => (rowItems first last (param body 3) (param body 4)).map fun ks => ks.map (itemRecord s)
  | _ => none

/-- The first number a READ reply repeats: for ITEM the first field. -/
def readFirst (body : List Byte) : Nat := if param body 0 = 7 then param body 3 else param body 1

/-- The lengths of a READ body: 5 for ITEM, else 3 (R193). -/
def readFits (body : List Byte) : Bool :=
  body.length = if 0 < body.length ∧ param body 0 = 7 then 5 else 3

/-! ### STATUS (R186) -/

/-- One entry of the active set: level, condition, kind, time accepted (R77). -/
def activeBytes (l : Fin 7) (e : ActiveEntry) : List Byte :=
  sBytes [l.val + 1, e.cond.val, e.kind.code] ++ bytes32 e.since

/-- The standing fallback: BUS_SILENT 0, SETTINGS_FAULT 1, or absent (log entry 11). -/
def standingFallback (s : State) : Option Int :=
  if s.ctx.silent.isSome then some 0 else if s.ctx.fault.isSome then some 1 else none

/-- The sections of STATUS, or none for a code that is no section (R186). DESIGN CHOICE: the awaited unit is its number
alone, and an idle scan and a grant holder of none have the absent code (log entry 11). -/
def statusSection (s : State) (code : Nat) : Option (List Byte) :=
  match code with
  | 0 => some (optBytes (s.srx.busStamp.map fun b => (b.toNat : Int)) ++
      flagBytes [s.srx.busSilent, s.srx.busDead, s.srx.deadTimer.isSome])
  | 1 => some (sBytes [s.ctx.capPct, boolInt s.ctx.forcedZero, s.ctx.refreshCount] ++
      optBytes (standingFallback s))
  | 2 =>
    let entries := (List.finRange 7).filterMap fun l => (s.rsc.active.get l).map (activeBytes l)
    some (sBytes [boolInt s.rsc.auto, s.sys Sys.levels, boolInt s.rsc.suppress, entries.length] ++
      entries.flatten ++ flagBytes [s.alarmA, s.alarmB])
  | 3 => some (sBytes [s.gsd.permits, s.sys Sys.crankPermits] ++
      listBytes (s.gsd.queue.map fun g => (g.val + 1 : Int)))
  | 4 => some (sBytes [s.fdc.queue.length] ++
      (s.fdc.queue.flatMap fun f => sBytes [f.val + 1, s.need f]) ++ flagBytes [s.fdc.clearFlag])
  | 5 => some (sBytes [s.bss.program.code] ++ optBytes (s.bss.phase.map Phase.code) ++
      sBytes [s.bss.restarts] ++
      listBytes (((List.finRange 6).filter s.bss.tried.get).map fun g => (g.val + 1 : Int)) ++
      optBytes (s.bss.holder.map fun g => (g.val + 1 : Int)) ++
      optBytes (s.bss.firstSet.map fun g => (g.val + 1 : Int)) ++
      optBytes (s.bss.awaited.map fun u => (u.number : Int)) ++
      timerBytes s s.bss.firstCloseTimer ++ timerBytes s s.bss.energizeTimer ++
      timerBytes s s.bss.limitTimer ++ timerBytes s s.bss.settleTimer)
  | 6 => some (optUBytes s.sst.committed ++ flagBytes [s.sst.settingsFault] ++
      optBytes (s.sst.scan.map fun c => ((s.tick - c.start).toNat : Int)))
  | 7 => some (sBytes [s.hlc.notices.length, boolInt s.hlc.lost, s.hlc.sequence.toNat,
      s.hlc.slots.length])
  | _ => none

/-! ### PASS (R187) -/

/-- The pass record of the PASS reply (R193). The stamp byte of the empty record is a free value (log entry
14). -/
def passBytes (r : PassRecord) : List Byte :=
  bytes32 r.number ++
    [match r.stamp with | some b => b.setWidth 8 | none => Config.emptyStampByte] ++
    [byteOf r.kind.code, byteOf ((if r.settled then 1 else 0) + if r.clamped then 2 else 0)] ++
    [r.f, r.rocof, r.g, r.p, r.fl, r.rg, r.fg, r.h, r.r, r.aFloor, r.aCap, r.aDroop, r.aRamp,
      r.a].flatMap optBytes ++
    ((List.finRange 8).flatMap fun p => optBytes (r.ceilings.get p)) ++ optBytes r.stableTime ++
    byteOf r.staleHeads.length :: r.staleHeads.map fun h => byteOf h.val

end Sys2Proof.Machine
end

