-- ==== Sys2Proof/WellFormed.lean ====
section
/-!
DEFINITION. Which commands can arrive at the part at all: a body fits a host frame (R192), a request
row names a request, and the two sample rows carry the frames they are named for. The meanings are
total; they also answer for ill-formed commands.
-/
namespace Sys2Proof

/-- A host frame's body is 0 to 240 bytes long (R192). -/
def bodyFits (body : List Byte) : Bool := body.length ≤ Config.maxBody

/-- The 23 request codes 0x01 to 0x17 (R192). -/
def isRequestCode (kind : Byte) : Bool := 1 ≤ kind.toNat && kind.toNat ≤ 0x17

/-- The kind field of a sample frame, bits 6 and 5 of byte 0 (R194): 1 PERIOD, 2 DEAD, 3 POWER. -/
def burstKind (burst : List Byte) : Nat :=
  match burst with
  | b0 :: _ => b0.toNat / 32 % 4
  | [] => 0

def Instr.wellFormed : Instr → Bool
  | .powerOn _ _ => true
  | .identify _ body => bodyFits body
  | .read _ body => bodyFits body
  | .status _ body => bodyFits body
  | .pass _ body => bodyFits body
  | .write _ body => bodyFits body
  | .commit _ body => bodyFits body
  | .tune _ body => bodyFits body
  | .engage _ body => bodyFits body
  | .disengage _ body => bodyFits body
  | .restart _ body => bodyFits body
  | .safe _ body => bodyFits body
  | .auto _ body => bodyFits body
  | .force _ body => bodyFits body
  | .clear _ body => bodyFits body
  | .ack _ body => bodyFits body
  | .bind _ body => bodyFits body
  | .unbind _ body => bodyFits body
  | .step _ body => bodyFits body
  | .genset _ body => bodyFits body
  | .runtime _ body => bodyFits body
  | .feeder _ body => bodyFits body
  | .plant _ body => bodyFits body
  | .blackstart _ body => bodyFits body
  | .requestUnknown kind _ body => !isRequestCode kind && bodyFits body
  | .hostFrameReceived chars => !chars.isEmpty
  | .hostCharacterTimeout => true
  | .replySend => true
  | .noticeSend => true
  | .powerFrame burst => !burst.isEmpty && burstKind burst != 1 && burstKind burst != 2
  | .busRecord burst => !burst.isEmpty && burstKind burst != 3
  | .busSilenceTimerExpiry => true
  | .deadTimerExpiry => true
  | .balancePass => true
  | .ceilingFrameSend => true
  | .silentFallbackTick => true
  | .faultFallbackTick => true
  | .holdOffExpiry _ => true
  | .runningRises _ => true
  | .runningFalls _ => true
  | .breakerRises _ => true
  | .breakerFalls _ => true
  | .readyRises _ => true
  | .readyFalls _ => true
  | .crankTimerExpiry _ => true
  | .restTimerExpiry _ => true
  | .syncTimerExpiry _ => true
  | .stopTimerExpiry _ => true
  | .minRunTimerExpiry _ => true
  | .runSecond _ => true
  | .feederBreakerFalls _ => true
  | .feederBreakerRises _ => true
  | .breakerTimerExpiry _ => true
  | .firstCloseTimerExpiry => true
  | .energizeTimerExpiry => true
  | .energizeLimitTimerExpiry => true
  | .settleTimerExpiry => true
  | .scanItemRead => true
  | .scanCompletion => true
  | .resetNAsserted => true
  | .sampleFrameReceived burst => !burst.isEmpty

end Sys2Proof
end

