-- ==== Sys2Proof/Machine/LinkRequests.lean ====
section
/-!
DEFINITION. The requests owned by HLC, the unknown request, and the events of the host line (R179 to R189).
-/
namespace Sys2Proof.Machine

/-- IDENTIFY (R184). -/
def identifyAct (reply : Reply) (s : State) : State := reply .ok (identifyBytes s) s

/-- READ (R185). -/
def readAct (body : List Byte) (reply : Reply) (s : State) : State :=
  match readRecords s body with
  | some rs => readReply (param body 0) (readFirst body) rs reply s
  | none => reply .range [] s

/-- STATUS: the tick, the mode, and the section named (R186). -/
def statusAct (body : List Byte) (reply : Reply) (s : State) : State :=
  match statusSection s (param body 0) with
  | some bs => reply .ok (bytes32 s.tick ++ sBytes [s.sst.mode.code] ++ bs) s
  | none => reply .range [] s

/-- PASS (R187). -/
def passAct (reply : Reply) (s : State) : State := reply .ok (passBytes s.ben.record) s

/-- A kind that is no request code is answered UNKNOWN, whatever its body (R181). -/
def unknownAct (reply : Reply) (s : State) : State := reply .unknown [] s

def execIdentify (tag : Byte) (body : List Byte) (s : State) : Answer :=
  .next (takeRequest 0x01 tag body (body.length = 0) identifyAct s)

def execRead (tag : Byte) (body : List Byte) (s : State) : Answer :=
  .next (takeRequest 0x02 tag body (readFits body) (readAct body) s)

def execStatus (tag : Byte) (body : List Byte) (s : State) : Answer :=
  .next (takeRequest 0x17 tag body (body.length = 1) (statusAct body) s)

def execPass (tag : Byte) (body : List Byte) (s : State) : Answer :=
  .next (takeRequest 0x16 tag body (body.length = 0) passAct s)

/-- A frame whose kind is a request code is no such frame; the command then changes nothing (log entry 3). -/
def execRequestUnknown (kind tag : Byte) (body : List Byte) (s : State) : Answer :=
  .next (if isRequestCode kind then s else takeRequest kind tag body true unknownAct s)

def execHostFrameReceived (chars : List Byte) (s : State) : Answer :=
  .next (takeEvent (hostChars chars) s)

def execHostCharacterTimeout (s : State) : Answer :=
  .next (takeEvent (expire (s.hlc.partialFrame.map PartialFrame.due) dropPartial) s)

def execReplySend (s : State) : Answer := .next (takeEvent sendReply s)

def execNoticeSend (s : State) : Answer := .next (takeEvent sendNotice s)

end Sys2Proof.Machine
end

