-- ==== Sys2Proof/Machine/PowerCommands.lean ====
section
/-!
DEFINITION. POWER_ON and RESET_N_ASSERTED (R163).
-/
namespace Sys2Proof.Machine

/-- The rate code of the two straps, 0 to 3 in the order of the strap table (R193). -/
def strapRate (strap1 strap2 : Bool) : Fin 4 :=
  match strap1, strap2 with
  | false, false => 0
  | true, false => 1
  | false, true => 2
  | true, true => 3

/-- The sets after power-on: every record at its power-on value, the inputs as they stand (R97, R120). -/
def resetSets (t : Tab 6 SetRec) : Tab 6 SetRec :=
  t.mapIdx fun _ r => { SetRec.initial with running := r.running, breaker := r.breaker, ready := r.ready }

/-- The feeders after power-on, the inputs as they stand (R125, R143). -/
def resetFeeders (t : Tab 16 FeederRec) : Tab 16 FeederRec :=
  t.mapIdx fun _ r => { FeederRec.initial with breaker := r.breaker }

/-- POWER_ON (R163): every block takes power-on, the straps give the rate, and a MODE notice stands in the
FIFO. The inputs and the queue are outside the part and stay. -/
def execPowerOn (strap1 strap2 : Bool) (s : State) : Answer :=
  .next { State.reset with
    lineRate := strapRate strap1 strap2
    gsd := { State.reset.gsd with sets := resetSets s.gsd.sets }
    fdc := { State.reset.fdc with feeders := resetFeeders s.fdc.feeders }
    pending := s.pending }

/-- RESET_N_ASSERTED (R163, R5, R179, R190): frames are no longer taken, no line is driven, a frame being
transmitted is cut off and partly received frames are discarded. -/
def execResetNAsserted (s : State) : Answer :=
  .next { s with
    resetLow := true
    srx := Srx.initial
    ctx.line := none
    hlc.partialFrame := none
    hlc.line := none }

end Sys2Proof.Machine
end

