-- ==== Sys2Proof/Machine/SampleEvents.lean ====
section
/-!
DEFINITION. The events of the sample link and the timers of SRX (R6, R10, R13, R14, R17).
-/
namespace Sys2Proof.Machine

def execPowerFrame (burst : List Byte) (s : State) : Answer :=
  .next (takeEvent (takeBurst burst powerAct) s)

def execBusRecord (burst : List Byte) (s : State) : Answer :=
  .next (takeEvent (takeBurst burst busAct) s)

def execBusSilenceTimerExpiry (s : State) : Answer :=
  .next (takeEvent (expire s.srx.silenceTimer busFellSilent) s)

def execDeadTimerExpiry (s : State) : Answer :=
  .next (takeEvent (expire s.srx.deadTimer busDeclaredDead) s)

def execSampleFrameReceived (burst : List Byte) (s : State) : Answer :=
  .next (takeEvent (receiveBurst burst) s)

end Sys2Proof.Machine
end

