-- ==== Sys2Proof/Machine/ScanEvents.lean ====
section
/-!
DEFINITION. The check scan (R176).
-/
namespace Sys2Proof.Machine

def execScanItemRead (s : State) : Answer := .next (takeEvent readScanItem s)

def execScanCompletion (s : State) : Answer := .next (takeEvent completeScan s)

end Sys2Proof.Machine
end

