-- ==== Sys2Proof/Machine/SetEvents.lean ====
section
/-!
DEFINITION. The inputs and timers of the generating sets (R98, R102 to R112, R120).
-/
namespace Sys2Proof.Machine

/-- GSD at a change of an input: in RUN the event of the rule, outside RUN the mapping; a set not installed is held
UNAVAILABLE, its input not acted on (R96, R120; log entry 53). -/
def setInputActs (inRun : Fin 6 → State → State) (g : Fin 6) (s : State) : State :=
  gsdEvent (whileInstalled (if s.inRun then inRun else mapSet) g) s

/-- An input of set `g` has another level than `now`, and takes that level; then GSD acts. An input that has
the level already does not change (log entry 3). -/
def setInput (now : SetRec → Bool) (level : Bool) (put : SetRec → SetRec)
    (inRun : Fin 6 → State → State) (g : Fin 6) (s : State) : State :=
  if now (s.setRec g) = level then s else takeInput (modSet g put) (setInputActs inRun g) s

/-- A timer of set `g` in state `st` expires (R98); a set not installed is then held UNAVAILABLE (R96; log entry 53). -/
def setTimer (st : SetState) (f : Fin 6 → State → State) (g : Fin 6) (s : State) : State :=
  if (s.setRec g).state = st then
    takeEvent (expire (s.setRec g).timer (gsdEvent (whileInstalled f g))) s
  else s

/-- The min-run timer of a set ends: the mark becomes yes (R98). -/
def minRunEnded (g : Fin 6) (s : State) : State :=
  modSet g (fun r => { r with minRunMet := true, minRunTimer := none }) s

/-- RUN_SECOND of an installed set whose RUNNING is high: time passes until its accumulator reaches 1,000 ms, which
counts the second (R112; log entry 40). -/
def runSecondDue (g : Fin 6) (s : State) : State :=
  if s.setInstalled g && (s.setRec g).running then advance (1000 - (s.setRec g).accumulator) s else s

def execRunningRises (g : Fin 6) (s : State) : Answer :=
  .next (setInput SetRec.running true (fun r => { r with running := true }) runningRisen g s)

def execRunningFalls (g : Fin 6) (s : State) : Answer :=
  .next (setInput SetRec.running false (fun r => { r with running := false }) runningFallen g s)

def execBreakerRises (g : Fin 6) (s : State) : Answer :=
  .next (setInput SetRec.breaker true (fun r => { r with breaker := true }) setBreakerRisen g s)

def execBreakerFalls (g : Fin 6) (s : State) : Answer :=
  .next (setInput SetRec.breaker false (fun r => { r with breaker := false }) setBreakerFallen g s)

def execReadyRises (g : Fin 6) (s : State) : Answer :=
  .next (setInput SetRec.ready true (fun r => { r with ready := true }) readyRisen g s)

def execReadyFalls (g : Fin 6) (s : State) : Answer :=
  .next (setInput SetRec.ready false (fun r => { r with ready := false }) readyFallen g s)

def execCrankTimerExpiry (g : Fin 6) (s : State) : Answer :=
  .next (setTimer .cranking crankExpired g s)

def execRestTimerExpiry (g : Fin 6) (s : State) : Answer := .next (setTimer .rest restExpired g s)

def execSyncTimerExpiry (g : Fin 6) (s : State) : Answer := .next (setTimer .runUp syncExpired g s)

def execStopTimerExpiry (g : Fin 6) (s : State) : Answer := .next (setTimer .stopping stopExpired g s)

def execMinRunTimerExpiry (g : Fin 6) (s : State) : Answer :=
  .next (takeEvent (expire (s.setRec g).minRunTimer (gsdEvent (whileInstalled minRunEnded g))) s)

def execRunSecond (g : Fin 6) (s : State) : Answer := .next (takeEvent (runSecondDue g) s)

end Sys2Proof.Machine
end

