-- ==== Sys2Proof/Machine/SettingsRequests.lean ====
section
/-!
DEFINITION. The requests owned by SST (R164 to R168, R171, R174).
-/
namespace Sys2Proof.Machine

/-- WRITE (R171). -/
def writeAct (body : List Byte) (reply : Reply) (s : State) : State :=
  if s.sst.mode = .setup then
    match writeImage s.sst.image (rawItems body) with
    | .error i => reply .range [byteOf i] s
    | .ok copy => reply .ok [] (takeWrite (rawItems body) copy s)
  else reply .mode [] s

/-- The lengths of a WRITE body: 8, 16 to 240 (R193). -/
def writeFits (body : List Byte) : Bool :=
  8 ≤ body.length && body.length ≤ Config.maxBody && body.length % 8 = 0

/-- The first item of an image outside its range, in scan order (R165). -/
def firstOutside (m : Image) : Option ItemName := checkOrder.find? fun k => !k.inRange (m.get k)

/-- COMMIT (R165). -/
def commitAct (body : List Byte) (reply : Reply) (s : State) : State :=
  if s.sst.mode = .setup then
    match firstOutside s.sst.image with
    | some k => reply .range [byteOf k.codes.1, byteOf k.codes.2.1, byteOf k.codes.2.2] s
    | none =>
      let check := checkOf s.sst.image
      if check = param32 body 0 then reply .ok (bytes32 check) (commitImage check s)
      else reply .checkMismatch (bytes32 check) s
  else reply .mode [] s

/-- TUNE of a named item to a value (R174). -/
def tuneItem (k : ItemName) (v : Int) (reply : Reply) (s : State) : State :=
  if s.sst.mode = .check || s.sst.mode = .run then
    if !k.tunable then reply .notTunable [] s
    else if !k.inRange v then reply .range [] s
    else
      let t := takeTune k v s
      itemTuned s k (reply .ok (bytes32 (t.sst.committed.getD 0)) t)
  else reply .mode [] s

/-- TUNE (R174). -/
def tuneAct (body : List Byte) (reply : Reply) (s : State) : State :=
  match rawItems body with
  | [r] =>
    match r.name with
    | some k => tuneItem k r.value reply s
    | none => reply .range [] s
  | _ => reply .range [] s

/-- ENGAGE (R166). -/
def engageAct (reply : Reply) (s : State) : State :=
  if s.sst.mode = .check then engageRun (reply .ok [] s) else reply .mode [] s

/-- DISENGAGE (R167). -/
def disengageAct (reply : Reply) (s : State) : State :=
  if s.sst.mode = .run then disengageRun (reply .ok [] s) else reply .mode [] s

/-- RESTART (R164). -/
def restartAct (reply : Reply) (s : State) : State := restartPart (reply .ok [] s)

/-- SAFE (R168). -/
def safeAct (reply : Reply) (s : State) : State :=
  if s.sst.mode = .safe then reply .ok [] s else enterSafe .safeRequest (reply .ok [] s)

def execWrite (tag : Byte) (body : List Byte) (s : State) : Answer :=
  .next (takeRequest 0x03 tag body (writeFits body) (writeAct body) s)

def execCommit (tag : Byte) (body : List Byte) (s : State) : Answer :=
  .next (takeRequest 0x04 tag body (body.length = 4) (commitAct body) s)

def execTune (tag : Byte) (body : List Byte) (s : State) : Answer :=
  .next (takeRequest 0x09 tag body (body.length = 8) (tuneAct body) s)

def execEngage (tag : Byte) (body : List Byte) (s : State) : Answer :=
  .next (takeRequest 0x05 tag body (body.length = 0) engageAct s)

def execDisengage (tag : Byte) (body : List Byte) (s : State) : Answer :=
  .next (takeRequest 0x06 tag body (body.length = 0) disengageAct s)

def execRestart (tag : Byte) (body : List Byte) (s : State) : Answer :=
  .next (takeRequest 0x07 tag body (body.length = 0) restartAct s)

def execSafe (tag : Byte) (body : List Byte) (s : State) : Answer :=
  .next (takeRequest 0x08 tag body (body.length = 0) safeAct s)

end Sys2Proof.Machine
end

