-- ==== Sys2Proof/Machine/UnitRequests.lean ====
section
/-!
DEFINITION. The requests on one unit and on a failed black start program: GENSET, RUNTIME, FEEDER, PLANT and
BLACKSTART (R45, R112, R117 to R119, R138 to R140, R159).
-/
namespace Sys2Proof.Machine

/-! ### GENSET (R117 to R119) -/

/-- GENSET actions, in the order of R193. -/
inductive SetAction where
  | start | stop | takeOut | bringIn | clearLockout
  deriving DecidableEq, Repr

def setActionOf (n : Nat) : Option SetAction :=
  match n with
  | 0 => some .start | 1 => some .stop | 2 => some .takeOut | 3 => some .bringIn | 4 => some .clearLockout
  | _ => none

/-- START by hand (R118). -/
def manualStart (g : Fin 6) (s : State) : Option State :=
  if (s.setRec g).state = .standby then some (startSet g .manual s) else none

/-- STOP by hand (R118). -/
def manualStop (g : Fin 6) (s : State) : Option State :=
  match (s.setRec g).state with
  | .queued => some (gsdEvent (giveUp g) s)
  | .rest => some (gsdEvent (giveUp g) s)
  | .cranking => some (gsdEvent (fun s => serveQueue (giveUp g s)) s)
  | .runUp => some (stopSet g none s)
  | .online => some (stopSet g none s)
  | .unavailable => none
  | .standby => none
  | .stopping => none
  | .lockout => none

/-- Whether OUT is allowed (R119). -/
def State.outAllowed (s : State) (g : Fin 6) : Bool :=
  match (s.setRec g).state with
  | .cranking => false
  | .runUp => false
  | .online => false
  | .stopping => false
  | _ => !(s.setRec g).running

/-- A set changes its out-of-service flag and perhaps its state: one UNIT notice covers both (R99, R119; log
entry 18). -/
def moveOrNotify (g : Fin 6) (st : SetState) (s : State) : State :=
  if (s.setRec g).state = st then notifySet g s else moveSet g st s

/-- OUT (R119). -/
def outOfServiceSet (g : Fin 6) (s : State) : Option State :=
  if s.outAllowed g then
    if (s.setRec g).outOfService then some s
    else
      some (gsdEvent (fun s =>
        let rests := (s.setRec g).state = .rest ∨ (s.setRec g).state = .lockout
        moveOrNotify g .unavailable (modSet g (fun r =>
          { r with outOfService := true, attempts := if rests then 0 else r.attempts }) s)) s)
  else none

/-- IN (R119). -/
def intoServiceSet (g : Fin 6) (s : State) : Option State :=
  if (s.setRec g).outOfService then
    some (gsdEvent (fun s =>
      let s := modSet g (fun r => { r with outOfService := false }) s
      let r := s.setRec g
      moveOrNotify g (if r.state = .unavailable ∧ r.ready then .standby else r.state) s) s)
  else some s

/-- CLEAR_LOCKOUT (R119). -/
def clearLockout (g : Fin 6) (s : State) : Option State :=
  if (s.setRec g).state = .lockout then
    some (gsdEvent (fun s => mapSet g (modSet g (fun r => { r with attempts := 0 }) s)) s)
  else none

/-- What an action does, or none where the set's state does not allow it (R118, R119). -/
def setAction (a : SetAction) (g : Fin 6) (s : State) : Option State :=
  match a with
  | .start => manualStart g s
  | .stop => manualStop g s
  | .takeOut => outOfServiceSet g s
  | .bringIn => intoServiceSet g s
  | .clearLockout => clearLockout g s

/-- GENSET (R117). -/
def gensetAct (body : List Byte) (reply : Reply) (s : State) : State :=
  match unitRow 6 (param body 0), setActionOf (param body 1) with
  | some g, some a =>
    if !s.setInstalled g then reply .notInstalled [] s
    else if (a = .start ∨ a = .stop) ∧ ¬s.inRun then reply .mode [] s
    else if s.level7 then reply .busy [] s
    else if stale (expected 2 body) (s.setRec g).revision then
      reply .staleRevision (bytes16 (s.setRec g).revision) s
    else
      match setAction a g s with
      | some t => reply .ok [] t
      | none => reply .state [] s
  | _, _ => reply .range [] s

/-! ### RUNTIME (R112) -/

/-- The run seconds take a value; the accumulator is kept and the revision rises. -/
def setRunSeconds (g : Fin 6) (v : Word) (s : State) : State :=
  modSet g (fun r => { r with runSeconds := v, revision := r.revision + 1 }) s

/-- RUNTIME (R112). -/
def runtimeAct (body : List Byte) (reply : Reply) (s : State) : State :=
  match unitRow 6 (param body 0) with
  | none => reply .range [] s
  | some g =>
    if !s.setInstalled g then reply .notInstalled [] s
    else if s.level7 then reply .busy [] s
    else if stale (expected 5 body) (s.setRec g).revision then
      reply .staleRevision (bytes16 (s.setRec g).revision) s
    else reply .ok [] (setRunSeconds g (param32 body 1) s)

/-! ### FEEDER (R138 to R140) -/

/-- FEEDER actions, in the order of R193. -/
inductive FeederAction where
  | trip | close | takeOut | bringIn
  deriving DecidableEq, Repr

def feederActionOf (n : Nat) : Option FeederAction :=
  match n with
  | 0 => some .trip | 1 => some .close | 2 => some .takeOut | 3 => some .bringIn | _ => none

/-- OUT of a feeder that is not yet out of service (R140). -/
def feederOut (f : Fin 16) (s : State) : State :=
  fdcEvent (fun s => moveFeeder f .outOfService
    (modFeeder f (fun r => { r with outOfService := true, preShed := none }) s)) s

/-- IN of a feeder out of service (R140, R143). -/
def feederIn (f : Fin 16) (s : State) : State :=
  fdcEvent (fun s => mapFeeder f (modFeeder f (fun r => { r with outOfService := false }) s)) s

/-- What an action does, or none where the feeder's state does not allow it (R139, R140). -/
def feederAction (a : FeederAction) (f : Fin 16) (s : State) : Option State :=
  let st := (s.feederRec f).state
  match a with
  | .trip => if st = .closed then some (tripFeeder f .host s) else none
  | .close => if st = .openShed ∨ st = .openExt then some (closeFeeder f .host s) else none
  | .takeOut =>
    if st = .tripping ∨ st = .closing then none
    else if st = .outOfService then some s
    else some (feederOut f s)
  | .bringIn => if st = .outOfService ∧ (s.feederRec f).outOfService then some (feederIn f s) else some s

/-- FEEDER (R138). -/
def feederAct (body : List Byte) (reply : Reply) (s : State) : State :=
  match unitRow 16 (param body 0), feederActionOf (param body 1) with
  | some f, some a =>
    if !s.feederInstalled f then reply .notInstalled [] s
    else if (a = .trip ∨ a = .close) ∧ ¬s.inRun then reply .mode [] s
    else if s.level7 then reply .busy [] s
    else if stale (expected 2 body) (s.feederRec f).revision then
      reply .staleRevision (bytes16 (s.feederRec f).revision) s
    else
      match feederAction a f s with
      | some t => reply .ok [] t
      | none => reply .state [] s
  | _, _ => reply .range [] s

/-! ### PLANT (R45) -/

/-- The in-service field takes a value; a change raises the revision and queues a PLANT notice (R45). -/
def setService (p : Fin 8) (v : Bool) (s : State) : State :=
  if (s.plantRow p).inService = v then s
  else
    notify .plant (p.val + 1) [sField (boolInt v)]
      (modPlant p (fun r => { r with inService := v, revision := r.revision + 1 }) s)

/-- PLANT: IN is coded 0, OUT 1 (R45, R193; log entry 23). -/
def plantAct (body : List Byte) (reply : Reply) (s : State) : State :=
  match unitRow 8 (param body 0) with
  | none => reply .range [] s
  | some p =>
    if 1 < param body 1 then reply .range [] s
    else if !s.plantInstalled p then reply .notInstalled [] s
    else if stale (expected 2 body) (s.plantRow p).revision then
      reply .staleRevision (bytes16 (s.plantRow p).revision) s
    else reply .ok [] (setService p (param body 1 = 0) s)

/-! ### BLACKSTART (R159) -/

/-- BLACKSTART: RETRY is coded 0, ABANDON 1 (R159, R193). -/
def blackstartAct (body : List Byte) (reply : Reply) (s : State) : State :=
  if 1 < param body 0 then reply .range [] s
  else if !s.inRun then reply .mode [] s
  else if s.bss.program ≠ .failed then reply .state [] s
  else if param body 0 = 0 then reply .ok [] (retryProgram s)
  else reply .ok [] (abandonProgram s)

def execGenset (tag : Byte) (body : List Byte) (s : State) : Answer :=
  .next (takeRequest 0x10 tag body (body.length = 2 || body.length = 4) (gensetAct body) s)

def execRuntime (tag : Byte) (body : List Byte) (s : State) : Answer :=
  .next (takeRequest 0x13 tag body (body.length = 5 || body.length = 7) (runtimeAct body) s)

def execFeeder (tag : Byte) (body : List Byte) (s : State) : Answer :=
  .next (takeRequest 0x11 tag body (body.length = 2 || body.length = 4) (feederAct body) s)

def execPlant (tag : Byte) (body : List Byte) (s : State) : Answer :=
  .next (takeRequest 0x12 tag body (body.length = 2 || body.length = 4) (plantAct body) s)

def execBlackstart (tag : Byte) (body : List Byte) (s : State) : Answer :=
  .next (takeRequest 0x14 tag body (body.length = 1) (blackstartAct body) s)

end Sys2Proof.Machine
end

