-- ==== Sys2Proof/Machine/Dispatch.lean ====
section
/-!
DEFINITION. One arm for each command: the call of its meaning.
-/
namespace Sys2Proof.Machine

def exec (i : Instr) (s : State) : Host.Outcome State Fault Refusal :=
  match i with
  | .powerOn strap1 strap2 => Sys2Proof.Machine.execPowerOn strap1 strap2 s
  | .identify tag body => Sys2Proof.Machine.execIdentify tag body s
  | .read tag body => Sys2Proof.Machine.execRead tag body s
  | .status tag body => Sys2Proof.Machine.execStatus tag body s
  | .pass tag body => Sys2Proof.Machine.execPass tag body s
  | .write tag body => Sys2Proof.Machine.execWrite tag body s
  | .commit tag body => Sys2Proof.Machine.execCommit tag body s
  | .tune tag body => Sys2Proof.Machine.execTune tag body s
  | .engage tag body => Sys2Proof.Machine.execEngage tag body s
  | .disengage tag body => Sys2Proof.Machine.execDisengage tag body s
  | .restart tag body => Sys2Proof.Machine.execRestart tag body s
  | .safe tag body => Sys2Proof.Machine.execSafe tag body s
  | .auto tag body => Sys2Proof.Machine.execAuto tag body s
  | .force tag body => Sys2Proof.Machine.execForce tag body s
  | .clear tag body => Sys2Proof.Machine.execClear tag body s
  | .ack tag body => Sys2Proof.Machine.execAck tag body s
  | .bind tag body => Sys2Proof.Machine.execBind tag body s
  | .unbind tag body => Sys2Proof.Machine.execUnbind tag body s
  | .step tag body => Sys2Proof.Machine.execStep tag body s
  | .genset tag body => Sys2Proof.Machine.execGenset tag body s
  | .runtime tag body => Sys2Proof.Machine.execRuntime tag body s
  | .feeder tag body => Sys2Proof.Machine.execFeeder tag body s
  | .plant tag body => Sys2Proof.Machine.execPlant tag body s
  | .blackstart tag body => Sys2Proof.Machine.execBlackstart tag body s
  | .requestUnknown kind tag body => Sys2Proof.Machine.execRequestUnknown kind tag body s
  | .hostFrameReceived chars => Sys2Proof.Machine.execHostFrameReceived chars s
  | .hostCharacterTimeout => Sys2Proof.Machine.execHostCharacterTimeout s
  | .replySend => Sys2Proof.Machine.execReplySend s
  | .noticeSend => Sys2Proof.Machine.execNoticeSend s
  | .powerFrame burst => Sys2Proof.Machine.execPowerFrame burst s
  | .busRecord burst => Sys2Proof.Machine.execBusRecord burst s
  | .busSilenceTimerExpiry => Sys2Proof.Machine.execBusSilenceTimerExpiry s
  | .deadTimerExpiry => Sys2Proof.Machine.execDeadTimerExpiry s
  | .balancePass => Sys2Proof.Machine.execBalancePass s
  | .ceilingFrameSend => Sys2Proof.Machine.execCeilingFrameSend s
  | .silentFallbackTick => Sys2Proof.Machine.execSilentFallbackTick s
  | .faultFallbackTick => Sys2Proof.Machine.execFaultFallbackTick s
  | .holdOffExpiry c => Sys2Proof.Machine.execHoldOffExpiry c s
  | .runningRises g => Sys2Proof.Machine.execRunningRises g s
  | .runningFalls g => Sys2Proof.Machine.execRunningFalls g s
  | .breakerRises g => Sys2Proof.Machine.execBreakerRises g s
  | .breakerFalls g => Sys2Proof.Machine.execBreakerFalls g s
  | .readyRises g => Sys2Proof.Machine.execReadyRises g s
  | .readyFalls g => Sys2Proof.Machine.execReadyFalls g s
  | .crankTimerExpiry g => Sys2Proof.Machine.execCrankTimerExpiry g s
  | .restTimerExpiry g => Sys2Proof.Machine.execRestTimerExpiry g s
  | .syncTimerExpiry g => Sys2Proof.Machine.execSyncTimerExpiry g s
  | .stopTimerExpiry g => Sys2Proof.Machine.execStopTimerExpiry g s
  | .minRunTimerExpiry g => Sys2Proof.Machine.execMinRunTimerExpiry g s
  | .runSecond g => Sys2Proof.Machine.execRunSecond g s
  | .feederBreakerFalls f => Sys2Proof.Machine.execFeederBreakerFalls f s
  | .feederBreakerRises f => Sys2Proof.Machine.execFeederBreakerRises f s
  | .breakerTimerExpiry f => Sys2Proof.Machine.execBreakerTimerExpiry f s
  | .firstCloseTimerExpiry => Sys2Proof.Machine.execFirstCloseTimerExpiry s
  | .energizeTimerExpiry => Sys2Proof.Machine.execEnergizeTimerExpiry s
  | .energizeLimitTimerExpiry => Sys2Proof.Machine.execEnergizeLimitTimerExpiry s
  | .settleTimerExpiry => Sys2Proof.Machine.execSettleTimerExpiry s
  | .scanItemRead => Sys2Proof.Machine.execScanItemRead s
  | .scanCompletion => Sys2Proof.Machine.execScanCompletion s
  | .resetNAsserted => Sys2Proof.Machine.execResetNAsserted s
  | .sampleFrameReceived burst => Sys2Proof.Machine.execSampleFrameReceived burst s

end Sys2Proof.Machine
end

