-- ==== Sys2Proof/Machine/Idle.lean ====
section
/-!
DEFINITION. What the part does of its own accord when no command waits (log entry 1): the next event that is
ready becomes a command; where none is ready, one millisecond passes.
-/
namespace Sys2Proof.Machine

/-- The command that takes a held frame (R180, R192). -/
def requestOf (f : HostFrame) : Instr :=
  match f.kind.toNat with
  | 0x01 => .identify f.tag f.body
  | 0x02 => .read f.tag f.body
  | 0x03 => .write f.tag f.body
  | 0x04 => .commit f.tag f.body
  | 0x05 => .engage f.tag f.body
  | 0x06 => .disengage f.tag f.body
  | 0x07 => .restart f.tag f.body
  | 0x08 => .safe f.tag f.body
  | 0x09 => .tune f.tag f.body
  | 0x0A => .auto f.tag f.body
  | 0x0B => .force f.tag f.body
  | 0x0C => .clear f.tag f.body
  | 0x0D => .bind f.tag f.body
  | 0x0E => .unbind f.tag f.body
  | 0x0F => .step f.tag f.body
  | 0x10 => .genset f.tag f.body
  | 0x11 => .feeder f.tag f.body
  | 0x12 => .plant f.tag f.body
  | 0x13 => .runtime f.tag f.body
  | 0x14 => .blackstart f.tag f.body
  | 0x15 => .ack f.tag f.body
  | 0x16 => .pass f.tag f.body
  | 0x17 => .status f.tag f.body
  | _ => .requestUnknown f.kind f.tag f.body

/-- The command that takes the frame in the receive stage (R17). -/
def sampleOfStage (burst : List Byte) : Instr :=
  if burstKind burst = 3 then .powerFrame burst else .busRecord burst

/-- Whether a timer runs and its due time has come. -/
def State.due (s : State) (t : Option Tick) : Bool :=
  match t with
  | some d => s.remaining d = 0
  | none => false

/-- `i` when `b` holds. -/
def onlyIf (b : Bool) (i : Instr) : List Instr := if b then [i] else []

/-- The timer of a set's state (R98). -/
def stateTimerExpiry (st : SetState) (g : Fin 6) : List Instr :=
  match st with
  | .cranking => [.crankTimerExpiry g]
  | .rest => [.restTimerExpiry g]
  | .runUp => [.syncTimerExpiry g]
  | .stopping => [.stopTimerExpiry g]
  | _ => []

/-- The events of a set whose time has come. -/
def setEventsDue (s : State) (g : Fin 6) : List Instr :=
  let r := s.setRec g
  (if s.due r.timer then stateTimerExpiry r.state g else []) ++
    onlyIf (s.due r.minRunTimer) (.minRunTimerExpiry g)

/-- The timers of SRX, CTX and BSS whose time has come. -/
def blockTimersDue (s : State) : List Instr :=
  onlyIf (s.due s.srx.silenceTimer) .busSilenceTimerExpiry ++
    onlyIf (s.due s.srx.deadTimer) .deadTimerExpiry ++
    onlyIf (s.due (s.ctx.silent.map FallbackRun.due)) .silentFallbackTick ++
    onlyIf (s.due (s.ctx.fault.map FallbackRun.due)) .faultFallbackTick ++
    onlyIf (s.due s.bss.firstCloseTimer) .firstCloseTimerExpiry ++
    onlyIf (s.due s.bss.energizeTimer) .energizeTimerExpiry ++
    onlyIf (s.due s.bss.limitTimer) .energizeLimitTimerExpiry ++
    onlyIf (s.due s.bss.settleTimer) .settleTimerExpiry

/-- The scan's next read or its completion, when its time has come (R176). -/
def scanDue (s : State) : List Instr :=
  match s.sst.scan with
  | none => []
  | some c =>
    onlyIf (c.position < checkOrder.length && s.due (some (c.itemDue c.position))) .scanItemRead ++
      onlyIf (s.due (some c.due)) .scanCompletion

/-- The events of the sample link, BEN and the two transmitters that are ready. -/
def linkEventsReady (s : State) : List Instr :=
  (s.srx.stage.toList.map sampleOfStage) ++
    onlyIf (!s.ben.starts.isEmpty) .balancePass ++
    onlyIf s.nextCeiling.isSome .ceilingFrameSend ++
    onlyIf s.hlc.reply.isSome .replySend ++
    onlyIf (s.due (s.hlc.partialFrame.map PartialFrame.due)) .hostCharacterTimeout ++
    (s.hlc.slots.take 1).map requestOf ++
    onlyIf (!s.hlc.notices.isEmpty) .noticeSend

/-- Every event that is ready, in the order the model takes them. -/
def readyEvents (s : State) : List Instr :=
  linkEventsReady s ++ blockTimersDue s ++
    ((List.finRange 24).flatMap fun c => onlyIf (s.due (s.condRow c).holdOff) (.holdOffExpiry c)) ++
    ((List.finRange 6).flatMap (setEventsDue s)) ++
    ((List.finRange 16).flatMap fun f => onlyIf (s.due (s.feederRec f).timer) (.breakerTimerExpiry f)) ++
    scanDue s

/-- The idle step (log entry 1): hand-overs still waiting are taken; else the first event that is ready
becomes a command; else one millisecond passes. Nothing happens while RESET_N is low. -/
def idle (s : State) : State :=
  if s.resetLow then s
  else if !s.handovers.isEmpty then drain Config.cascadeFuel s
  else
    match readyEvents s with
    | [] => advance 1 s
    | i :: _ => { s with pending := s.pending ++ [i] }

end Sys2Proof.Machine
end

