-- ==== Sys2Proof/Safety.lean ====
section
/-!
DEFINITION. What holds of the part in every state that its events can reach, block by block.
-/
namespace Sys2Proof.Machine

/-- The notice FIFO holds at most 32 notices (R188). -/
def Hlc.FifoOk (h : Hlc) : Prop := h.notices.length ≤ Config.noticeCapacity

/-- The receive buffer holds at most two frames (R180). -/
def Hlc.SlotsOk (h : Hlc) : Prop := h.slots.length ≤ Config.receiveSlots

/-- While forced-zero is set, every ceiling that waits is 0 (R46, R50). -/
def Ctx.ZeroOk (c : Ctx) : Prop :=
  c.forcedZero = true → ∀ p, c.waiting.get p = none ∨ c.waiting.get p = some 0

/-- The dead-bus grant has a holder only in FIRST (R151). -/
def Bss.GrantOk (b : Bss) : Prop := b.holder ≠ none → b.program = .first

/-- Entries stand in the active set only in RUN (R66, R73). -/
def ActiveOk (m : Mode) (active : Tab 7 (Option ActiveEntry)) : Prop :=
  m ≠ .run → ∀ l, active.get l = none

/-- The sets in CRANKING, counted. -/
def Gsd.crankingCount (d : Gsd) : Nat :=
  (List.finRange 6).countP fun g => (d.sets.get g).state = .cranking

/-- The crank queue holds exactly the QUEUED sets, each once, and one permit is in use for each CRANKING set
(R100). -/
def Gsd.CrankOk (d : Gsd) : Prop :=
  d.queue.Nodup ∧ (∀ g, g ∈ d.queue ↔ (d.sets.get g).state = .queued) ∧ d.permits = d.crankingCount

/-- The restore queue holds feeders in OPEN_SHED, each once (R135). -/
def Fdc.RestoreOk (d : Fdc) : Prop :=
  d.queue.Nodup ∧ ∀ f ∈ d.queue, (d.feeders.get f).state = .openShed

/-- A feeder stands in the restore queue exactly when it is OPEN_SHED, and once (R135); a feeder that is not installed,
or that is out of service, is in OUT_OF_SERVICE (R143), so that the rebuild of R142 leaves no OPEN_SHED feeder out
(log entry 63). -/
def State.ShedOk (s : State) : Prop :=
  s.fdc.queue.Nodup ∧ (∀ f, f ∈ s.fdc.queue ↔ (s.feederRec f).state = .openShed) ∧
  ∀ f, s.feederInstalled f = false ∨ (s.feederRec f).outOfService = true →
    (s.feederRec f).state = .outOfService

end Sys2Proof.Machine
end

