-- ==== Sys2Proof/Certificates/Slice0/Obligations.lean ====
section
/-!
DEFINITION. The statements for the provers. Numbers in frames are written as R192 to R195 code them. A statement
that ends in `cascade u` says what the command itself does (`u`); what the hand-overs in `u` then do is said by
the statements on cascades, acceptance and completion.
-/
namespace Sys2Proof.Machine

/-- RESET_N is high and no hand-over waits: an event starts and ends here. -/
def State.calm (s : State) : Prop := s.resetLow = false ∧ s.handovers = []

/-- HLC can take the request `f` now: it is the oldest frame held, or arrives while none is held (R180). -/
def State.takes (s : State) (kind tag : Byte) (body : List Byte) : Prop :=
  s.calm ∧ (s.hlc.slots = [] ∨ ∃ rest, s.hlc.slots = ⟨kind, tag, body⟩ :: rest)

/-- The frame has left its slot, and a reply that waited has begun to go out (R180, R183). -/
def State.taken (s : State) : State :=
  { s with
    hlc.slots := s.hlc.slots.tail
    hlc.reply := none
    hlc.line := match s.hlc.reply with
      | none => s.hlc.line
      | some r => some (hostFrameBytes r) }

/-- A reply waits for the transmitter: its kind, tag and body (status, then values). -/
def State.replied (s : State) (kind tag : Byte) (body : List Byte) : State :=
  { s with hlc.reply := some ⟨kind, tag, body⟩ }

/-- The hand-overs of an event have been taken (R196; log entry 6). -/
def cascade (u : State) : State := drain Config.cascadeFuel u

/-- The body lengths R193 allows each request kind. -/
def lengthAllowed (kind : Nat) (body : List Byte) : Prop :=
  match kind with
  | 0x02 => if body.head? = some 7 then body.length = 5 else body.length = 3
  | 0x03 => body.length % 8 = 0 ∧ 8 ≤ body.length ∧ body.length ≤ 240
  | 0x04 => body.length = 4
  | 0x09 => body.length = 8
  | 0x0A => body.length = 1
  | 0x0B => body.length = 1
  | 0x0C => body.length = 1
  | 0x0D => body.length = 7 ∨ body.length = 9
  | 0x0E => body.length = 1 ∨ body.length = 3
  | 0x0F => body.length = 1
  | 0x10 => body.length = 2 ∨ body.length = 4
  | 0x11 => body.length = 2 ∨ body.length = 4
  | 0x12 => body.length = 2 ∨ body.length = 4
  | 0x13 => body.length = 5 ∨ body.length = 7
  | 0x14 => body.length = 1
  | 0x15 => body.length = 1
  | 0x17 => body.length = 1
  | _ => body.length = 0

/-- What a command does while RESET_N is low: an input takes its level, nothing else happens. -/
def levelOnly (c : Instr) (s : State) : State :=
  match c with
  | .runningRises g => modSet g (fun r => { r with running := true }) s
  | .runningFalls g => modSet g (fun r => { r with running := false }) s
  | .breakerRises g => modSet g (fun r => { r with breaker := true }) s
  | .breakerFalls g => modSet g (fun r => { r with breaker := false }) s
  | .readyRises g => modSet g (fun r => { r with ready := true }) s
  | .readyFalls g => modSet g (fun r => { r with ready := false }) s
  | .feederBreakerRises f => modFeeder f (fun r => { r with breaker := true }) s
  | .feederBreakerFalls f => modFeeder f (fun r => { r with breaker := false }) s
  | _ => s

/-- The optional expected revision at the end of a body: left out, or equal to the row's (R182). -/
def revisionGood (rev : List Byte) (row : Revision) : Prop := rev = [] ∨ rev = bytes16 row

/-- The rules of R173 for a list of an image: shed lists 0 to 3, and 4 for the merit list. -/
def listGood (m : Image) (key : Fin 5) : Prop :=
  if h : key.val < 4 then
    let entry : Fin 17 → Int := fun i => m.get (.shed ⟨key.val, h⟩ i)
    0 ≤ entry 0 ∧ entry 0 ≤ 16 ∧
    ∀ i : Fin 17, 1 ≤ i.val →
      ((i.val : Int) ≤ entry 0 →
        (∃ f : Fin 16, entry i = f.val + 1 ∧ m.get (.feeder f 0) = 1) ∧
        ∀ j : Fin 17, 1 ≤ j.val → (j.val : Int) ≤ entry 0 → entry i = entry j → i = j) ∧
      (entry 0 < i.val → entry i = 0)
  else
    let entry : Fin 7 → Int := fun i => m.get (.merit i)
    0 ≤ entry 0 ∧ entry 0 ≤ 6 ∧
    ∀ i : Fin 7, 1 ≤ i.val →
      ((i.val : Int) ≤ entry 0 → 1 ≤ entry i ∧ entry i ≤ 6 ∧
        ∀ j : Fin 7, 1 ≤ j.val → (j.val : Int) ≤ entry 0 → entry i = entry j → i = j) ∧
      (entry 0 < i.val → entry i = 0)

/-- An item of a request names a list. -/
def touchesList (r : RawItem) (key : Fin 5) : Prop := ∃ k, r.name = some k ∧ itemList k = some key

/-- An item of a request exists, is not fixed, and its value lies in the item's range. -/
def writable (r : RawItem) : Prop := ∃ k, r.name = some k ∧ k.fixed = false ∧ k.inRange r.value = true

/-- A set's row after `d` milliseconds, its time in ONLINE counted to an hour, the greatest min_run (log entry 39). -/
def onlineCounted (d : Nat) (r : SetRec) : SetRec :=
  { r with onlineMs := if r.state = .online then min 3600000 (r.onlineMs + d) else r.onlineMs }

/-- Every set and feeder stands where the mapping puts it, with nothing in flight (R120, R121, R143, R144). That the time
ONLINE is 0 for every set, also for one that stays ONLINE, is the model's choice: the count is its own (log entry 39), and
the mapping starts such a set afresh (log entry 20). -/
def unitsReleased (s u : State) : Prop :=
  u.gsd.queue = [] ∧ u.gsd.permits = 0 ∧ u.fdc.queue = [] ∧ u.fdc.clearFlag = false ∧
  (∀ g, let r := u.setRec g
    r.state = s.mappedSet g ∧ r.attempts = 0 ∧ r.retry = false ∧ r.timer = none ∧ r.origin = none ∧
    r.stopOwner = none ∧ r.runSeconds = (s.setRec g).runSeconds ∧
    r.outOfService = (s.setRec g).outOfService ∧ r.accumulator = (s.setRec g).accumulator ∧ r.onlineMs = 0) ∧
  ∀ f, let r := u.feederRec f
    r.state = s.mappedFeeder f ∧ r.origin = none ∧ r.timer = none ∧
    r.preShed = (if s.mappedFeeder f = .closed then none else (s.feederRec f).preShed) ∧
    r.outOfService = (s.feederRec f).outOfService

/-- The program is IDLE, with no grant, no phase, no awaited unit and no timer; a program that was IDLE already is
left as it was (R160). -/
def programStopped (s u : State) : Prop :=
  if s.bss.program = .idle then u.bss = s.bss
  else u.bss = ⟨.idle, none, s.bss.restarts, s.bss.tried, none, s.bss.firstSet, none, none, none, none, none⟩

/-- What holds a set that is not installed UNAVAILABLE, when an event of its own finds it in state `st`: it moves there
with its retry mark clear, and a permit it held serves the queue (R96, R100; at which event, log entry 53). -/
def heldUnavailable (g : Fin 6) (st : SetState) (s : State) : State :=
  let t := moveSet g .unavailable (modSet g (fun r => { r with retry := false }) s)
  if st = .unavailable then s else if st = .cranking then serveQueue t else t

/-- A chain whose step in flight has been abandoned (R94). -/
def abandoned (c : Chain) : Chain :=
  match c.flight with
  | none => c
  | some _ => { c with
      flight := none, trigger := if c.count = 0 then none else c.trigger, revision := c.revision + 1 }

/-- The events that the part has ready (log entry 1): what waits to be taken or sent, and the timers whose due tick has
come. A held frame is ready as the request its kind names, or as an unknown one (R181, R193). -/
def isReady (s : State) (i : Instr) : Prop :=
  let due : Option Tick → Prop := fun timer => ∃ d, timer = some d ∧ s.remaining d = 0
  let held : Byte → Byte → List Byte → Prop := fun kind tag body =>
    s.hlc.slots.head? = some ⟨kind, tag, body⟩
  match i with
  | .powerFrame burst => s.srx.stage = some burst ∧ burstKind burst = 3
  | .busRecord burst => s.srx.stage = some burst ∧ burstKind burst ≠ 3
  | .balancePass => s.ben.starts ≠ []
  | .ceilingFrameSend => ∃ p, s.ctx.waiting.get p ≠ none
  | .replySend => s.hlc.reply ≠ none
  | .noticeSend => s.hlc.notices ≠ []
  | .hostCharacterTimeout => ∃ p, s.hlc.partialFrame = some p ∧ s.remaining p.due = 0
  | .busSilenceTimerExpiry => due s.srx.silenceTimer
  | .deadTimerExpiry => due s.srx.deadTimer
  | .silentFallbackTick => ∃ run, s.ctx.silent = some run ∧ s.remaining run.due = 0
  | .faultFallbackTick => ∃ run, s.ctx.fault = some run ∧ s.remaining run.due = 0
  | .firstCloseTimerExpiry => due s.bss.firstCloseTimer
  | .energizeTimerExpiry => due s.bss.energizeTimer
  | .energizeLimitTimerExpiry => due s.bss.limitTimer
  | .settleTimerExpiry => due s.bss.settleTimer
  | .holdOffExpiry c => due (s.condRow c).holdOff
  | .crankTimerExpiry g => (s.setRec g).state = .cranking ∧ due (s.setRec g).timer
  | .restTimerExpiry g => (s.setRec g).state = .rest ∧ due (s.setRec g).timer
  | .syncTimerExpiry g => (s.setRec g).state = .runUp ∧ due (s.setRec g).timer
  | .stopTimerExpiry g => (s.setRec g).state = .stopping ∧ due (s.setRec g).timer
  | .minRunTimerExpiry g => due (s.setRec g).minRunTimer
  | .breakerTimerExpiry f => due (s.feederRec f).timer
  | .scanItemRead => ∃ c, s.sst.scan = some c ∧ c.position < 369 ∧
      s.remaining (c.start + BitVec.ofNat 32 (c.position * 1000 / 369)) = 0
  | .scanCompletion => ∃ c, s.sst.scan = some c ∧ s.remaining (c.start + 1000) = 0
  | .identify tag body => held 0x01 tag body
  | .read tag body => held 0x02 tag body
  | .write tag body => held 0x03 tag body
  | .commit tag body => held 0x04 tag body
  | .engage tag body => held 0x05 tag body
  | .disengage tag body => held 0x06 tag body
  | .restart tag body => held 0x07 tag body
  | .safe tag body => held 0x08 tag body
  | .tune tag body => held 0x09 tag body
  | .auto tag body => held 0x0A tag body
  | .force tag body => held 0x0B tag body
  | .clear tag body => held 0x0C tag body
  | .bind tag body => held 0x0D tag body
  | .unbind tag body => held 0x0E tag body
  | .step tag body => held 0x0F tag body
  | .genset tag body => held 0x10 tag body
  | .feeder tag body => held 0x11 tag body
  | .plant tag body => held 0x12 tag body
  | .runtime tag body => held 0x13 tag body
  | .blackstart tag body => held 0x14 tag body
  | .ack tag body => held 0x15 tag body
  | .pass tag body => held 0x16 tag body
  | .status tag body => held 0x17 tag body
  | .requestUnknown kind tag body => held kind tag body ∧ (kind = 0 ∨ 0x17 < kind.toNat)
  | .powerOn _ _ => False
  | .resetNAsserted => False
  | .hostFrameReceived _ => False
  | .sampleFrameReceived _ => False
  | .runningRises _ => False
  | .runningFalls _ => False
  | .breakerRises _ => False
  | .breakerFalls _ => False
  | .readyRises _ => False
  | .readyFalls _ => False
  | .runSecond _ => False
  | .feederBreakerFalls _ => False
  | .feederBreakerRises _ => False

/-- What a fallback makes pending for a plant, forced-zero being clear (R51, R52). -/
def fallbackCeiling (s : State) (choice : Fallback) (p : Fin 8) : Option Int :=
  if s.plantInstalled p = false then none
  else match choice with
    | .hold => none
    | .zero => some 0
    | .full => if (s.plantRow p).inService = true then some (s.plantCapacity p) else some 0

end Sys2Proof.Machine

open Sys2Proof Sys2Proof.Machine

/-! ### The queue of commands and the passing of time -/

/-- A step takes the command at the front of the queue and runs it on the queue's rest. -/
def Obligations.StepRunsFrontCommand : Prop :=
  ∀ (s : State) (c : Instr) (rest : List Instr),
    step { s with pending := c :: rest } = exec c { s with pending := rest }

/-- No command and no step ends in a fault or a refusal (a request that does not fit is answered by a reply), and
no command touches the queue. -/
def Obligations.CommandsAnswerAndKeepTheQueue : Prop :=
  (∀ (c : Instr) (s : State), ∃ t, exec c s = .next t ∧ t.pending = s.pending) ∧
  ∀ s : State, ∃ t, step s = .next t

/-- The model's choice of log entry 1: with no command waiting, hand-overs that wait are taken; else the first
event that is ready becomes a command; else one millisecond passes at the tick, the stable-since timer (R36)
and the installed sets that run, whose whole seconds are counted (R112; log entry 40), as the time of a set in ONLINE is (log
entry 39). The events of `readyEvents` are
exactly those that `isReady` names: the frame in the receive stage, a pass start, a waiting ceiling, a reply, the oldest
request held, a notice, and every timer whose due tick has come. Their order is the model's (log entry 1). -/
def Obligations.EmptyQueueLetsTimePass : Prop :=
  (∀ (s : State) (i : Instr), i ∈ readyEvents s ↔ isReady s i) ∧
  ∀ s : State, s.pending = [] →
    (s.resetLow = true → step s = .next s) ∧
    (s.resetLow = false → s.handovers ≠ [] → step s = .next (cascade s)) ∧
    (s.calm → ∀ i l, readyEvents s = i :: l → step s = .next { s with pending := [i] }) ∧
    (s.calm → readyEvents s = [] → ∃ t, step s = .next t ∧
      t.tick = s.tick + 1 ∧ t.ben.stableMs = min 600000 (s.ben.stableMs + 1) ∧
      (∀ g, let r := s.setRec g
        t.setRec g = onlineCounted 1 (if r.running = true ∧ s.setInstalled g = true then { r with
          accumulator := (r.accumulator + 1) % 1000
          runSeconds := r.runSeconds + BitVec.ofNat 32 ((r.accumulator + 1) / 1000)
          revision := r.revision + BitVec.ofNat 16 ((r.accumulator + 1) / 1000) } else r)) ∧
      t = { s with tick := t.tick, ben.stableMs := t.ben.stableMs, gsd.sets := t.gsd.sets })

/-- The cascade of an event (R196): nothing waits, nothing happens; else the oldest hand-over is taken, and what it
makes joins those that wait. The hand-overs of one sender to one receiver stay in the order in which they were made; a
new one that follows none of those that wait stands before them all (the model's order, log entry 6). No cascade
changes the inputs, the settings, the mode, the samples, the pass record, the link's buffers or the queue of
commands. -/
def Obligations.CascadesTakeHandoversInOrder : Prop :=
  (∀ (n : Nat) (u : State), u.handovers = [] → drain n u = u) ∧
  (∀ (n : Nat) (u : State) (m : Handover) (rest : List Handover), u.handovers = m :: rest →
    drain (n + 1) u = drain n { deliver m { u with handovers := [] } with
      handovers := queueUp (deliver m { u with handovers := [] }).handovers rest }) ∧
  (∀ new waiting : List Handover,
    (queueUp new waiting).Perm (new ++ waiting) ∧ waiting.Sublist (queueUp new waiting) ∧
    (∀ a b : Block, let made : Handover → Bool := fun m => decide (m.sender = a) && decide (m.receiver = b)
      (queueUp new waiting).filter made = waiting.filter made ++ new.filter made) ∧
    new.filter (fun m => waiting.all fun r =>
      decide (m.sender ≠ r.sender) || decide (m.receiver ≠ r.receiver)) <+: queueUp new waiting) ∧
  (∀ m : Handover,
    m.sender = (match m with
      | .present vs => if ∃ p ∈ vs, p.1 = 0 ∨ p.1 = 12 ∨ p.1 = 13 then .srx else .ben
      | .raise c _ => if c = 5 ∨ c = 7 then .gsd else if c = 8 then .fdc else .chu
      | .complete reporter _ _ => reporter
      | .examine => .sst
      | .startResponse _ _ => .rsc
      | .chainUnitEnd _ u _ => (match u with | .set _ => .gsd | .feeder _ => .fdc)
      | .bssSetMoved _ _ _ | .bssStartEnd _ _ => .gsd
      | .bssSettled | .bssTripEnd _ _ | .bssCloseEnd _ _ => .fdc
      | .bssPass => .ben
      | .bssBusDead => .srx) ∧
    m.receiver = (match m with
      | .present _ | .raise _ _ | .complete _ _ _ | .examine | .startResponse _ .notice => .rsc
      | .startResponse _ .chains | .chainUnitEnd _ _ _ => .chu
      | .startResponse _ .startNext | .startResponse _ .stopNext => .gsd
      | .startResponse _ .restoreNext => .fdc
      | _ => .bss)) ∧
  ∀ u : State, let t := cascade u
    t.resetLow = u.resetLow ∧ t.tick = u.tick ∧ t.lineRate = u.lineRate ∧ t.srx = u.srx ∧
    t.sst = u.sst ∧ t.pending = u.pending ∧ t.ben.record = u.ben.record ∧ t.ben.ring = u.ben.ring ∧
    t.ben.starts = u.ben.starts ∧ t.ben.passNumber = u.ben.passNumber ∧
    t.ctx.plants = u.ctx.plants ∧ t.ctx.line = u.ctx.line ∧ t.ctx.silent = u.ctx.silent ∧
    t.ctx.fault = u.ctx.fault ∧ t.ctx.refreshCount = u.ctx.refreshCount ∧ t.rsc.auto = u.rsc.auto ∧
    t.rsc.faultLatch = u.rsc.faultLatch ∧
    t.hlc.reply = u.hlc.reply ∧ t.hlc.slots = u.hlc.slots ∧ t.hlc.line = u.hlc.line ∧
    t.hlc.partialFrame = u.hlc.partialFrame ∧ t.hlc.sequence = u.hlc.sequence ∧
    (∀ g, (t.setRec g).running = (u.setRec g).running ∧ (t.setRec g).breaker = (u.setRec g).breaker ∧
      (t.setRec g).ready = (u.setRec g).ready ∧ (t.setRec g).outOfService = (u.setRec g).outOfService ∧
      (t.setRec g).runSeconds = (u.setRec g).runSeconds ∧
      (t.setRec g).accumulator = (u.setRec g).accumulator) ∧
    ∀ f, (t.feederRec f).breaker = (u.feederRec f).breaker ∧
      (t.feederRec f).outOfService = (u.feederRec f).outOfService

/-! ### Power-on and RESET_N -/

/-- POWER_ON leaves every block as the tables of R5, R19, R44, R53, R56, R78, R97, R125, R146, R163 and R190
say; the straps give the line rate; inputs and the queue stay. -/
def Obligations.PowerOnResetsEveryBlock : Prop :=
  ∀ (s : State) (first second : Bool), ∃ t, exec (.powerOn first second) s = .next t ∧
    t.resetLow = false ∧ t.pending = s.pending ∧ t.handovers = [] ∧
    t.lineRate = (match first, second with
      | false, false => 0 | true, false => 1 | false, true => 2 | true, true => 3) ∧
    (∀ h, t.srx.heads.get h = ⟨none, 0, 255, .stale⟩) ∧ t.srx.lastKind = .none ∧
    t.srx.busStamp = none ∧ t.srx.silenceTimer = none ∧ t.srx.deadTimer = none ∧
    t.srx.busSilent = false ∧ t.srx.busDead = false ∧ t.srx.stage = none ∧
    t.ben.ring = [] ∧ t.ben.aPrev = 0 ∧ t.ben.stableMs = 0 ∧ t.ben.passNumber = 0 ∧
    t.ben.record = PassRecord.empty ∧ t.ben.starts = [] ∧
    (∀ p, t.plantRow p = ⟨true, none, 0⟩) ∧ (∀ p, t.ctx.waiting.get p = none) ∧
    t.ctx.capPct = 100 ∧ t.ctx.forcedZero = false ∧ t.ctx.refreshCount = 0 ∧
    t.ctx.silent = none ∧ t.ctx.fault = none ∧
    (∀ c, t.condRow c = ⟨false, false, none, .idle, none⟩) ∧ t.rsc.faultLatch = .idle ∧
    (∀ l, t.rsc.active.get l = none) ∧ t.rsc.auto = false ∧ t.rsc.suppress = false ∧
    (∀ n, t.chain n = ⟨none, .shed, none, 0, 0, .single, none, none, 0⟩) ∧
    (∀ g, t.setRec g = ⟨.unavailable, 0, none, false, none, false, none, 0, none, none, 0, 0, false, 0,
      (s.setRec g).running, (s.setRec g).breaker, (s.setRec g).ready⟩) ∧
    t.gsd.queue = [] ∧ t.gsd.permits = 0 ∧
    (∀ f, t.feederRec f = ⟨.outOfService, none, none, none, false, 0, (s.feederRec f).breaker⟩) ∧
    t.fdc.queue = [] ∧ t.fdc.clearFlag = false ∧
    t.bss.program = .idle ∧ t.bss.phase = none ∧ t.bss.restarts = 0 ∧
    (∀ g, t.bss.tried.get g = false) ∧ t.bss.holder = none ∧ t.bss.firstSet = none ∧
    t.bss.awaited = none ∧ t.bss.firstCloseTimer = none ∧ t.bss.energizeTimer = none ∧
    t.bss.limitTimer = none ∧ t.bss.settleTimer = none ∧
    t.sst.mode = .setup ∧ (∀ k, t.sst.image.get k = k.default) ∧ t.sst.committed = none ∧
    t.sst.settingsFault = false ∧ t.sst.scan = none ∧
    t.hlc.partialFrame = none ∧ t.hlc.slots = [] ∧ t.hlc.reply = none ∧ t.hlc.lost = false ∧
    t.hlc.sequence = 0 ∧ t.hlc.line = none ∧
    t.hlc.notices = [⟨.mode, t.tick, 0, [0, 0, 0, 0]⟩]

/-- RESET_N falls: SRX is reset, the frames in transmission are cut off, a partly received host frame is
dropped, and no line is driven while RESET_N stays low (R5, R163, R179, R190). What else is kept until
POWER_ON is the model's reading, log entry 8. -/
def Obligations.ResetLowReleasesEveryLine : Prop :=
  (∀ s : State, exec .resetNAsserted s = .next { s with
    resetLow := true, srx := Srx.initial, ctx.line := none, hlc.partialFrame := none, hlc.line := none }) ∧
  ∀ s : State, s.resetLow = true →
    (∀ g, s.startLine g = false ∧ s.stopLine g = false ∧ s.deadbusLine g = false) ∧
    (∀ f, s.tripLine f = false ∧ s.closeLine f = false) ∧ s.alarmA = false ∧ s.alarmB = false

/-- While RESET_N is low the part takes nothing: an input's level alone changes (R163; log entry 8). -/
def Obligations.NothingIsTakenWhileResetIsLow : Prop :=
  ∀ (s : State) (c : Instr), s.resetLow = true → c ≠ .resetNAsserted →
    (∀ a b, c ≠ .powerOn a b) → exec c s = .next (levelOnly c s)

/-! ### Invariants of every step -/

/-- The notice FIFO never holds more than 32 notices, nor the receive buffer more than two frames. -/
def Obligations.FifoAndBufferStayBounded : Prop :=
  ∀ s t : State, s.hlc.notices.length ≤ 32 ∧ s.hlc.slots.length ≤ 2 → step s = .next t →
    t.hlc.notices.length ≤ 32 ∧ t.hlc.slots.length ≤ 2

/-- While forced-zero is set every ceiling that waits is 0, and so is every ceiling then sent (R46, R50). -/
def Obligations.ForcedZeroCeilingsStayZero : Prop :=
  ∀ s t : State, s.ctx.ZeroOk → step s = .next t → t.ctx.ZeroOk

/-- The dead-bus grant has a holder only while the program is in FIRST (R151). -/
def Obligations.GrantStaysInFirst : Prop :=
  ∀ s t : State, s.bss.GrantOk → step s = .next t → t.bss.GrantOk

/-- The active set is empty whenever the mode is not RUN (R70). -/
def Obligations.ActiveSetStaysEmptyOutsideRun : Prop :=
  ∀ s t : State, ActiveOk s.sst.mode s.rsc.active → step s = .next t → ActiveOk t.sst.mode t.rsc.active

/-- A set is in the crank queue exactly when it is QUEUED, once, and the permits in use are the sets in
CRANKING (R100). -/
def Obligations.CrankQueueAndPermitsStayInStep : Prop :=
  ∀ s t : State, s.gsd.CrankOk → step s = .next t → t.gsd.CrankOk

/-- The restore queue holds each feeder at most once, and only feeders in OPEN_SHED; and a feeder is in it exactly when
its state is OPEN_SHED (R135). The second invariant also says that a feeder not installed or out of service is in
OUT_OF_SERVICE (R143): without that, a state that no run reaches could hold a feeder in OPEN_SHED that the rebuild of
R142 leaves out of the new queue (log entry 63). -/
def Obligations.RestoreQueueStaysInStep : Prop :=
  (∀ s t : State, s.fdc.RestoreOk → step s = .next t → t.fdc.RestoreOk) ∧
  ∀ s t : State, s.ShedOk → step s = .next t → t.ShedOk

/-- The invariants of the six statements above hold in the state after reset. -/
def Obligations.InvariantsHoldAtReset : Prop :=
  let s := State.reset
  (s.hlc.notices.length ≤ 32 ∧ s.hlc.slots.length ≤ 2) ∧ s.ctx.ZeroOk ∧ s.bss.GrantOk ∧
    ActiveOk s.sst.mode s.rsc.active ∧ s.gsd.CrankOk ∧ s.fdc.RestoreOk ∧ s.ShedOk

/-- The settings image changes by WRITE, TUNE and POWER_ON alone, and the line rate by POWER_ON alone. That nothing else
changes the image, a storage fault least of all, is the model's choice, log entry 31. -/
def Obligations.SettingsChangeOnlyByRequest : Prop :=
  ∀ (c : Instr) (s t : State), exec c s = .next t → (∀ a b, c ≠ .powerOn a b) →
    t.lineRate = s.lineRate ∧
    ((∀ tag body, c ≠ .write tag body ∧ c ≠ .tune tag body) → t.sst.image = s.sst.image)

/-! ### Frames and codes -/

/-- Whatever frame the host sends while HLC hunts and a slot is free is held as it was sent (R179, R180, R192), whole
or in any parts, each in time after the one before: `had` has come already, `part` comes now and `rest` is still to come.
The part that ends the frame puts it in a free slot; any other part joins those that came. That a character is in time up
to 2 ticks after the last one is log entry 46, and that one command carries any number of characters log entry 32. -/
def Obligations.HostFrameIsHeldAsSent : Prop :=
  (∀ (s : State) (f : HostFrame), s.calm → s.hlc.partialFrame = none → s.hlc.slots.length < 2 →
    f.body.length ≤ 240 →
    exec (.hostFrameReceived (hostFrameBytes f)) s = .next { s with hlc.slots := s.hlc.slots ++ [f] }) ∧
  ∀ (s : State) (f : HostFrame) (had part rest : List Byte), s.calm → f.body.length ≤ 240 →
    had ++ part ++ rest = hostFrameBytes f → part ≠ [] →
    (had = [] ∧ s.hlc.partialFrame = none ∨
      ∃ due, s.hlc.partialFrame = some ⟨had, due⟩ ∧ s.remaining due ≠ 0) →
    (rest ≠ [] → exec (.hostFrameReceived part) s =
      .next { s with hlc.partialFrame := some ⟨had ++ part, s.tick + 3⟩ }) ∧
    (rest = [] → s.hlc.slots.length < 2 → exec (.hostFrameReceived part) s =
      .next { s with hlc.partialFrame := none, hlc.slots := s.hlc.slots ++ [f] })

/-- The four discards of R179 leave the buffer as it was and HLC hunting: a length above 240, a wrong CRC, two
slots held, an idle line of more than 2 ms inside a frame; a character that is not SYNC is discarded between frames, and
a character in time goes on with the frame: it is its length, which is discarded with it above 240; it ends the frame,
which takes a free slot, or is discarded where its CRC is wrong or no slot is free (R180); or it is held with the others.
`covered` is a frame's length, kind, tag and body, as R192 lays them out.
That more than 2 ms are 3 ticks after the last character is log entry 46; that the timeout of no frame does nothing and
one told early lets the time pass to its due tick are log entries 2 and 3. -/
def Obligations.BrokenHostFramesAreDiscarded : Prop :=
  ∀ s : State, s.calm →
    (∀ len : Byte, s.hlc.partialFrame = none → 240 < len.toNat →
      exec (.hostFrameReceived [0xA5, len]) s = .next s) ∧
    (∀ b : Byte, s.hlc.partialFrame = none → b ≠ 0xA5 → exec (.hostFrameReceived [b]) s = .next s) ∧
    (s.hlc.partialFrame = none → exec (.hostFrameReceived [0xA5]) s =
      .next { s with hlc.partialFrame := some ⟨[0xA5], s.tick + 3⟩ }) ∧
    (∀ (covered crc : List Byte), s.hlc.partialFrame = none →
      covered.length = 3 + (covered.headD 0).toNat → covered.length ≤ 243 → crc.length = 2 →
      crc ≠ bytes16 (crc16 covered) ∨ s.hlc.slots.length = 2 →
      exec (.hostFrameReceived (0xA5 :: covered ++ crc)) s = .next s) ∧
    (s.hlc.partialFrame = none → exec .hostCharacterTimeout s = .next s) ∧
    ∀ p, s.hlc.partialFrame = some p →
      exec .hostCharacterTimeout s = .next { advanceTo p.due s with hlc.partialFrame := none } ∧
      ∀ b : Byte,
        (s.remaining p.due = 0 → exec (.hostFrameReceived [b]) s =
          exec (.hostFrameReceived [b]) { s with hlc.partialFrame := none }) ∧
        (s.remaining p.due ≠ 0 → 2 ≤ p.chars.length →
          p.chars.length + 1 ≠ 6 + (p.chars.getD 1 0).toNat → exec (.hostFrameReceived [b]) s =
            .next { s with hlc.partialFrame := some ⟨p.chars ++ [b], s.tick + 3⟩ }) ∧
        (s.remaining p.due ≠ 0 → p.chars.length = 1 → exec (.hostFrameReceived [b]) s = .next { s with
          hlc.partialFrame := if 240 < b.toNat then none else some ⟨p.chars ++ [b], s.tick + 3⟩ }) ∧
        ∀ (sync : Byte) (covered crc : List Byte), s.remaining p.due ≠ 0 →
          p.chars ++ [b] = sync :: covered ++ crc → covered.length = 3 + (covered.headD 0).toNat →
          covered.length ≤ 243 → crc.length = 2 →
          (crc = bytes16 (crc16 covered) → s.hlc.slots.length < 2 → exec (.hostFrameReceived [b]) s =
            .next { s with
              hlc.partialFrame := none
              hlc.slots := s.hlc.slots ++ [⟨covered.getD 1 0, covered.getD 2 0, covered.drop 3⟩] }) ∧
          (crc ≠ bytes16 (crc16 covered) ∨ 2 ≤ s.hlc.slots.length → exec (.hostFrameReceived [b]) s =
            .next { s with hlc.partialFrame := none })

/-- A sample frame laid out by R194 reads back as the record or the measurement it carries; a frame whose CRC-8 is
wrong, whose head is 31, whose kind is 0 or does not fit the head, that breaks the framing of bytes 0 and 1, or that has
not six bytes is discarded (R3). A discarded frame changes nothing but the receive stage that held it: that such a frame
stands in the stage until it is taken is the model's choice, log entry 36, and so is a frame taken without a stay in it,
log entry 5. -/
def Obligations.SampleFrameReadsBack : Prop :=
  (∀ (stamp : Stamp) (v : Nat), v < 16777216 →
    sampleOf (sampleBytes 1 0 stamp v) = some (.bus .period stamp v) ∧
    sampleOf (sampleBytes 2 0 stamp v) = some (.bus .dead stamp 0)) ∧
  (∀ (h : Fin 31) (stamp : Stamp) (v : Int), h ≠ 0 → -8388608 ≤ v → v ≤ 8388607 →
    sampleOf (sampleBytes 3 h.val stamp v) = some (.power h stamp v)) ∧
  (∀ (stamp : Stamp) (v : Int), sampleOf (sampleBytes 3 31 stamp v) = none) ∧
  (∀ b0 b1 b2 b3 b4 c : Byte, c ≠ crc8 [b0, b1, b2, b3, b4] →
    sampleOf [b0, b1, b2, b3, b4, c] = none) ∧
  (∀ burst : List Byte, burst.length ≠ 6 → sampleOf burst = none) ∧
  (∀ (kind : Fin 4) (head : Fin 32) (stamp : Stamp) (v : Int),
    ¬((kind = 1 ∨ kind = 2) ∧ head = 0 ∨ kind = 3 ∧ head ≠ 0 ∧ head ≠ 31) →
    sampleOf (sampleBytes kind.val head.val stamp v) = none) ∧
  (∀ b0 b1 b2 b3 b4 c : Byte, b0.toNat < 128 ∨ 64 ≤ b1.toNat → sampleOf [b0, b1, b2, b3, b4, c] = none) ∧
  ∀ (s : State) (burst : List Byte), s.calm → sampleOf burst = none →
    (s.srx.stage = none ∨ s.srx.stage = some burst →
      exec (.powerFrame burst) s = .next { s with srx.stage := none } ∧
      exec (.busRecord burst) s = .next { s with srx.stage := none }) ∧
    (∀ held, s.srx.stage = some held → held ≠ burst →
      exec (.powerFrame burst) s = .next s ∧ exec (.busRecord burst) s = .next s)

/-- The codes of R195 name every item once, and its 8-byte form reads back as that item and value. -/
def Obligations.SettingsItemReadsBack : Prop :=
  (∀ k : ItemName, itemOfCodes k.codes.1 k.codes.2.1 k.codes.2.2 = some k) ∧
  ∀ (k : ItemName) (v : Int), -2147483648 ≤ v → v ≤ 2147483647 →
    rawItems (itemBytes k v) = [⟨k.codes.1, k.codes.2.1, k.codes.2.2, 0, v⟩] ∧
    RawItem.name ⟨k.codes.1, k.codes.2.1, k.codes.2.2, 0, v⟩ = some k

/-- The check is the CRC-32 over all 369 items, ascending by table, row and field, each in its 8-byte form, and
a scan that has read every item of an image holds the same value (R175, R195). -/
def Obligations.CheckCoversEveryItemInOrder : Prop :=
  (∀ k : ItemName, k ∈ checkOrder) ∧ checkOrder.length = 369 ∧
  checkOrder.Pairwise (fun a b => a.codes.1 < b.codes.1 ∨ a.codes.1 = b.codes.1 ∧
    (a.codes.2.1 < b.codes.2.1 ∨ a.codes.2.1 = b.codes.2.1 ∧ a.codes.2.2 < b.codes.2.2)) ∧
  (∀ m : Image, checkOf m =
    crc32Run 0xFFFFFFFF (checkOrder.flatMap fun k => itemBytes k (m.get k)) ^^^ 0xFFFFFFFF) ∧
  (∀ (m : Image), (checkOrder.flatMap fun k => itemBytes k (m.get k)).length = 2952) ∧
  ∀ (m : Image) (start : Tick) (n : Nat),
    crc32Final ((((⟨start, 0, crc32Init⟩ : Scan).readItems m (checkOrder.take n)).readItems m
      (checkOrder.drop n)).crc) = checkOf m

/-! ### The host link -/

/-- A frame of no request kind is answered UNKNOWN whatever its body, with bit 7 of its kind set; a request
whose body has no allowed length is answered LENGTH; neither changes anything else (R181, R192, R193). -/
def Obligations.UnfitRequestsAreRefused : Prop :=
  ∀ (s : State) (f : HostFrame), s.takes f.kind f.tag f.body →
    (¬(1 ≤ f.kind.toNat ∧ f.kind.toNat ≤ 0x17) →
      exec (.requestUnknown f.kind f.tag f.body) s =
        .next (s.taken.replied (f.kind ||| 0x80) f.tag [1])) ∧
    (1 ≤ f.kind.toNat → f.kind.toNat ≤ 0x17 → ¬lengthAllowed f.kind.toNat f.body →
      exec (requestOf f) s = .next (s.taken.replied (f.kind + 0x80) f.tag [2]))

/-- The replies of IDENTIFY and of PASS with a pass taken (R184, R187, R193). -/
def Obligations.IdentifyAndPassReplies : Prop :=
  ∀ (s : State) (tag : Byte),
    (s.takes 0x01 tag [] → exec (.identify tag []) s = .next (s.taken.replied 0x81 tag
      [0, 0x0E, 0x71, 0x02, 0x78, 1, 6, 8, 16, 24, 6, 4, byteOf s.lineRate.val])) ∧
    (s.takes 0x16 tag [] → ∀ b, s.ben.record.stamp = some b →
      exec (.pass tag []) s = .next (s.taken.replied 0x96 tag
        (0 :: bytes32 s.ben.record.number ++ [b.setWidth 8, byteOf s.ben.record.kind.code,
          byteOf ((if s.ben.record.settled then 1 else 0) + if s.ben.record.clamped then 2 else 0)] ++
        [s.ben.record.f, s.ben.record.rocof, s.ben.record.g, s.ben.record.p, s.ben.record.fl,
          s.ben.record.rg, s.ben.record.fg, s.ben.record.h, s.ben.record.r, s.ben.record.aFloor,
          s.ben.record.aCap, s.ben.record.aDroop, s.ben.record.aRamp, s.ben.record.a].flatMap optBytes ++
        ((List.finRange 8).flatMap fun p => optBytes (s.ben.record.ceilings.get p)) ++
        optBytes s.ben.record.stableTime ++
        byteOf s.ben.record.staleHeads.length :: s.ben.record.staleHeads.map fun h => byteOf h.val))) ∧
    (s.takes 0x16 tag [] → s.ben.record = PassRecord.empty → ∃ stampByte,
      exec (.pass tag []) s = .next (s.taken.replied 0x96 tag
        ([0, 0, 0, 0, 0, stampByte, 0, 0] ++
          (List.replicate 23 [0x80, 0, 0, 0]).flatten ++ [0])))

/-- READ answers the records from the first number to the last, or as many whole ones as fit in 240 bytes; a
class or number that does not exist, or a first above the last, is RANGE (R185). Settings items come each in its
8-byte form (log entry 12) with the value the image holds, 29 at the most, which is what fits (R178, R195). The record
of each class is given field by field (R16, R54, R77, R81, R123, R145); that an idle timer and a trigger of none read as
the absent code is log entry 11, that settings read as the blocks read them log entry 28, that an entry of 0 within the
length of a shed list is left out log entry 54, and that a live flag or level is 1 when set or high log entry 55. -/
def Obligations.ReadReturnsRecords : Prop :=
  (∀ s : State,
    let timer : Option Tick → List Byte := fun t => optBytes (t.map fun due => (s.remaining due : Int))
    let number : Option Nat → List Byte := fun v => optBytes (v.map Int.ofNat)
    (∀ h : Fin 31, let e := s.srx.heads.get h
      headRecord s h = sBytes [(h.val : Int)] ++ optBytes e.value ++
        sBytes [(e.stamp.toNat : Int), (e.framesSince : Int), if e.judgement = .fresh then 0 else 1] ++
        if h = 0 then sBytes [(s.srx.lastKind.code : Int)] else []) ∧
    (∀ g : Fin 6, let r := s.setRec g
      setRecord s g =
        sBytes [boolInt (s.setInstalled g), s.setRated g, s.setFloorPct g, boolInt (s.setCapable g),
          r.state.code, (r.attempts : Int)] ++ timer r.timer ++ sBytes [boolInt r.retry] ++
        optUBytes r.onlineSince ++ sBytes [boolInt r.minRunMet] ++ optBytes (r.origin.map Origin.code) ++
        optBytes (r.stopOwner.map Origin.code) ++ bytes32 r.runSeconds ++
        sBytes [boolInt r.outOfService, (r.revision.toNat : Int), boolInt r.running, boolInt r.breaker,
          boolInt r.ready, boolInt (!s.resetLow && s.setInstalled g && decide (r.state = .cranking)),
          boolInt (!s.resetLow && s.setInstalled g && decide (r.state = .stopping)),
          boolInt (!s.resetLow && decide (s.bss.holder = some g))]) ∧
    (∀ p : Fin 8, let r := s.plantRow p
      plantRecord s p = sBytes [boolInt (s.plantInstalled p), s.plantCapacity p, boolInt (s.plantFlex p),
        boolInt r.inService] ++ optBytes r.lastSent ++ sBytes [(r.revision.toNat : Int)]) ∧
    (∀ f : Fin 16, let r := s.feederRec f
      feederRecord s f =
        sBytes [boolInt (s.feederInstalled f), boolInt (s.feederEssential f), s.feederRank f,
          s.feederNominal f, r.state.code] ++ optBytes (r.origin.map Origin.code) ++ timer r.timer ++
        optBytes r.preShed ++
        sBytes [boolInt r.outOfService, (r.revision.toNat : Int),
          boolInt (!s.resetLow && decide (r.state = .tripping)),
          boolInt (!s.resetLow && decide (r.state = .closing)), boolInt r.breaker,
          r.preShed.getD (s.feederNominal f)]) ∧
    (∀ n : Fin 6, let r := s.chain n
      chainRecord s n = number (r.trigger.map Fin.val) ++ sBytes [r.kind.code] ++
        number (r.list.map Fin.val) ++ sBytes [(r.cursor : Int), (r.count : Int), r.mode.code] ++
        number r.stepSize ++ sBytes [boolInt r.flight.isSome, (r.revision.toNat : Int)]) ∧
    (∀ c : Fin 24, let r := s.condRow c
      condRecord s c =
        sBytes [s.setting (.cond c 0), s.setting (.cond c 1), s.setting (.cond c 2), s.setting (.cond c 3),
          s.setting (.cond c 4), s.setting (.cond c 5), boolInt r.flag] ++
        optBytes (if c.val ∈ [0, 1, 2, 3, 4, 6, 9, 10, 11, 12, 13] then some (boolInt r.last) else none) ++
        timer r.holdOff ++ sBytes [r.latch.code]) ∧
    ∀ l : Fin 4, shedRecord s l =
      sBytes (((s.shedList l).length : Int) :: (s.shedList l).map fun f => (f.val + 1 : Int))) ∧
  (∀ (s : State) (tag cls first last : Byte), s.takes 0x02 tag [cls, first, last] →
    cls.toNat ≠ 7 →
    let a := first.toNat
    let b := last.toNat
    let low := if cls.toNat = 1 ∨ cls.toNat = 2 ∨ cls.toNat = 3 then 1 else 0
    let high := match cls.toNat with
      | 0 => 30 | 1 => 6 | 2 => 8 | 3 => 16 | 4 => 5 | 5 => 23 | _ => 3
    let record : Nat → List Byte := fun n => match cls.toNat with
      | 0 => if h : n < 31 then headRecord s ⟨n, h⟩ else []
      | 1 => if h : n - 1 < 6 then setRecord s ⟨n - 1, h⟩ else []
      | 2 => if h : n - 1 < 8 then plantRecord s ⟨n - 1, h⟩ else []
      | 3 => if h : n - 1 < 16 then feederRecord s ⟨n - 1, h⟩ else []
      | 4 => if h : n < 6 then chainRecord s ⟨n, h⟩ else []
      | 5 => if h : n < 24 then condRecord s ⟨n, h⟩ else []
      | _ => if h : n < 4 then shedRecord s ⟨n, h⟩ else []
    (cls.toNat < 7 ∧ low ≤ a ∧ a ≤ b ∧ b ≤ high →
      ∃ n, 1 ≤ n ∧ n ≤ b - a + 1 ∧
        exec (.read tag [cls, first, last]) s = .next (s.taken.replied 0x82 tag
          (0 :: cls :: first :: byteOf n :: (List.range n).flatMap fun i => record (a + i))) ∧
        (4 + ((List.range n).flatMap fun i => record (a + i)).length ≤ 240) ∧
        (n < b - a + 1 →
          240 < 4 + ((List.range (n + 1)).flatMap fun i => record (a + i)).length)) ∧
    (¬(cls.toNat < 7 ∧ low ≤ a ∧ a ≤ b ∧ b ≤ high) →
      exec (.read tag [cls, first, last]) s = .next (s.taken.replied 0x82 tag [4]))) ∧
  ∀ (s : State) (tag table row first last : Byte), s.takes 0x02 tag [7, table, row, first, last] →
    (∀ items : List ItemName, first.toNat ≤ last.toNat → items.length = last.toNat - first.toNat + 1 →
      (∀ i (h : i < items.length), itemOfCodes table.toNat row.toNat (first.toNat + i) = some items[i]) →
      exec (.read tag [7, table, row, first, last]) s = .next (s.taken.replied 0x82 tag
        (0 :: 7 :: first :: byteOf (min items.length 29) ::
          (items.take 29).flatMap fun k => itemBytes k (s.sst.image.get k)))) ∧
    (last.toNat < first.toNat ∨ (∃ i, first.toNat ≤ i ∧ i ≤ last.toNat ∧
        itemOfCodes table.toNat row.toNat i = none) →
      exec (.read tag [7, table, row, first, last]) s = .next (s.taken.replied 0x82 tag [4]))

/-- Every STATUS reply begins with the tick and the mode; the sections carry what R186 lists (R16, R54, R77,
R123, R145, R178, R188, R189). The codings of idle timers and of an idle scan, of the entry layouts, of the awaited unit,
of a grant holder of none and of the standing fallback are the model's, log entry 11; that a flag or level is 1 when set,
true or asserted is log entry 55. -/
def Obligations.StatusSections : Prop :=
  ∀ (s : State) (tag : Byte),
    let reply : List Byte → Answer := fun bs => .next (s.taken.replied 0x97 tag
      (0 :: bytes32 s.tick ++ sBytes [s.sst.mode.code] ++ bs))
    (s.takes 0x17 tag [0] → exec (.status tag [0]) s = reply
      (optBytes (s.srx.busStamp.map fun b => (b.toNat : Int)) ++
        sBytes [boolInt s.srx.busSilent, boolInt s.srx.busDead, boolInt s.srx.deadTimer.isSome])) ∧
    (s.takes 0x17 tag [1] → exec (.status tag [1]) s = reply
      (sBytes [s.ctx.capPct, boolInt s.ctx.forcedZero, s.ctx.refreshCount] ++
        optBytes (if s.ctx.silent.isSome then some 0 else if s.ctx.fault.isSome then some 1 else none))) ∧
    (s.takes 0x17 tag [2] → exec (.status tag [2]) s = reply
      (sBytes [boolInt s.rsc.auto, s.sys Sys.levels, boolInt s.rsc.suppress,
          ((List.finRange 7).filterMap s.rsc.active.get).length] ++
        ((List.finRange 7).filterMap fun l => (s.rsc.active.get l).map fun e =>
          sBytes [l.val + 1, e.cond.val, e.kind.code] ++ bytes32 e.since).flatten ++
        sBytes [boolInt s.alarmA, boolInt s.alarmB])) ∧
    (s.takes 0x17 tag [3] → exec (.status tag [3]) s = reply
      (sBytes ([(s.gsd.permits : Int), s.sys Sys.crankPermits, (s.gsd.queue.length : Int)] ++
        s.gsd.queue.map fun g => (g.val + 1 : Int)))) ∧
    (s.takes 0x17 tag [4] → exec (.status tag [4]) s = reply
      (sBytes ([(s.fdc.queue.length : Int)] ++
        (s.fdc.queue.flatMap fun f => [(f.val + 1 : Int), s.need f]) ++ [boolInt s.fdc.clearFlag]))) ∧
    (s.takes 0x17 tag [5] → exec (.status tag [5]) s = reply
      (sBytes [s.bss.program.code] ++ optBytes (s.bss.phase.map Phase.code) ++
        sBytes (((s.bss.restarts : Nat) : Int) ::
          ((((List.finRange 6).filter s.bss.tried.get).length : Nat) : Int) ::
          ((List.finRange 6).filter s.bss.tried.get).map fun g => (g.val + 1 : Int)) ++
        optBytes (s.bss.holder.map fun g => (g.val + 1 : Int)) ++
        optBytes (s.bss.firstSet.map fun g => (g.val + 1 : Int)) ++
        optBytes (s.bss.awaited.map fun u => (u.number : Int)) ++
        [s.bss.firstCloseTimer, s.bss.energizeTimer, s.bss.limitTimer, s.bss.settleTimer].flatMap
          fun timer => optBytes (timer.map fun due => (s.remaining due : Int)))) ∧
    (s.takes 0x17 tag [6] → exec (.status tag [6]) s = reply
      (optUBytes s.sst.committed ++ sBytes [boolInt s.sst.settingsFault] ++
        optBytes (s.sst.scan.map fun c => ((s.tick - c.start).toNat : Int)))) ∧
    (s.takes 0x17 tag [7] → exec (.status tag [7]) s = reply
      (sBytes [s.hlc.notices.length, boolInt s.hlc.lost, s.hlc.sequence.toNat,
        s.hlc.slots.tail.length])) ∧
    ∀ code : Byte, 7 < code.toNat → s.takes 0x17 tag [code] →
      exec (.status tag [code]) s = .next (s.taken.replied 0x97 tag [4])

/-- A notice joins the FIFO while it holds fewer than 32, else it is dropped and the lost flag set; the
transmitter begins a waiting reply first, and else the oldest notice, which carries the lost flag and the
sequence number and then clears and counts (R183, R188, R189). -/
def Obligations.RepliesGoBeforeNotices : Prop :=
  (∀ (s : State) (k : NoticeKind) (subject : Nat) (values : List Word),
    (s.hlc.notices.length < 32 → notify k subject values s =
      { s with hlc.notices := s.hlc.notices ++ [⟨k, s.tick, subject, values⟩] }) ∧
    (32 ≤ s.hlc.notices.length → notify k subject values s = { s with hlc.lost := true })) ∧
  (∀ s : State, s.calm → s.hlc.reply = none →
    exec .replySend s = .next s ∧
    (s.hlc.notices = [] → exec .noticeSend s = .next s) ∧
    ∀ n rest, s.hlc.notices = n :: rest → ∃ f : HostFrame,
      f.kind = n.kind.code ∧ f.tag = 0 ∧
      f.body = [if s.hlc.lost then 1 else 0, s.hlc.sequence] ++ bytes32 n.tick ++
        [byteOf n.subject, byteOf n.values.length] ++ n.values.flatMap bytes32 ∧
      exec .noticeSend s = .next { s with
        hlc.notices := rest, hlc.lost := false, hlc.sequence := s.hlc.sequence + 1
        hlc.line := some (hostFrameBytes f) }) ∧
  ∀ s : State, s.calm → ∀ r, s.hlc.reply = some r →
    exec .replySend s = .next { s with hlc.reply := none, hlc.line := some (hostFrameBytes r) } ∧
    exec .noticeSend s = .next s

/-! ### The settings store -/

/-- WRITE (R171): the mode, the items that do not exist, the values and fixed items, and the lists of R173 are
tested in this order over a working copy, and either every item is written or none. The index of the first
broken list's last item, and indices from 0, are the model's choice, log entry 13. The working copy holds each item named
at the value of its last mention and every other item as it was (log entry 24), the four thresholds aside, which f_nom
sets where it is written after them (R35). -/
def Obligations.WriteTakesAllOrNone : Prop :=
  (∀ (m : Image) (items : List RawItem), let copy := applyItems m items
    let thresholds : List ItemName := [.sys 13, .sys 14, .sys 15, .sys 17]
    (∀ k, (∀ q ∈ items, q.name ≠ some k) → (k ∈ thresholds → ∀ q ∈ items, q.name ≠ some (.sys 3)) →
      copy.get k = m.get k) ∧
    ∀ pre r post, items = pre ++ r :: post →
      (∀ k, r.name = some k → (∀ q ∈ post, q.name ≠ some k) →
        (k ∈ thresholds → ∀ q ∈ post, q.name ≠ some (.sys 3)) → copy.get k = r.value) ∧
      ∀ (f : Fin 38) (at50 at60 : Int), r.name = some (.sys 3) →
        (f, at50, at60) ∈ [((13 : Fin 38), (47500 : Int), (57000 : Int)), (14, 48800, 58560), (15, 51500, 61800),
          (17, 49800, 59760)] →
        (∀ q ∈ post, q.name ≠ some (.sys 3) ∧ q.name ≠ some (.sys f)) →
        (r.value = 50000 → copy.get (.sys f) = at50) ∧ (r.value = 60000 → copy.get (.sys f) = at60)) ∧
  ∀ (s : State) (tag : Byte) (body : List Byte), s.takes 0x03 tag body → lengthAllowed 0x03 body →
    let items := rawItems body
    let copy := applyItems s.sst.image items
    let refused : Nat → Answer := fun i => .next (s.taken.replied 0x83 tag [4, byteOf i])
    (s.sst.mode ≠ .setup → exec (.write tag body) s = .next (s.taken.replied 0x83 tag [3])) ∧
    (s.sst.mode = .setup →
      (∀ pre r post, items = pre ++ r :: post → r.name = none → (∀ q ∈ pre, q.name ≠ none) →
        exec (.write tag body) s = refused pre.length) ∧
      ((∀ q ∈ items, q.name ≠ none) → ∀ pre r post, items = pre ++ r :: post → ¬writable r →
        (∀ q ∈ pre, writable q) → exec (.write tag body) s = refused pre.length) ∧
      ((∀ q ∈ items, writable q) → ∀ key pre r post, items = pre ++ r :: post → touchesList r key →
        (∀ q ∈ post, ¬touchesList q key) → ¬listGood copy key →
        (∀ key' < key, (∃ q ∈ items, touchesList q key') → listGood copy key') →
        exec (.write tag body) s = refused pre.length) ∧
      ((∀ q ∈ items, writable q) → (∀ key, (∃ q ∈ items, touchesList q key) → listGood copy key) →
        ∃ t, exec (.write tag body) s = .next t ∧ t.sst = { s.sst with image := copy } ∧
          t = cascade ((itemsWritten s.taken (changedItems s.sst.image copy (items.filterMap RawItem.name))
            { s.taken with sst.image := copy }).replied 0x83 tag [0])))

/-- A WRITE of f_nom sets the four thresholds to the defaults of the frequency written, whatever they and
f_nom held; another value is refused and changes nothing; droop_db, droop_span and rocof_threshold, like every
other item, stay; a threshold may be written after it in the same request, and tuned (R35). -/
def Obligations.WriteOfNominalFrequency : Prop :=
  (∀ (s : State) (tag : Byte) (v : Int), -2147483648 ≤ v → v ≤ 2147483647 → s.sst.mode = .setup →
    s.takes 0x03 tag (itemBytes (.sys 3) v) →
    (v ≠ 50000 → v ≠ 60000 → ∃ index : Byte,
      exec (.write tag (itemBytes (.sys 3) v)) s = .next (s.taken.replied 0x83 tag [4, index])) ∧
    (v = 50000 ∨ v = 60000 → ∃ m : Image,
      exec (.write tag (itemBytes (.sys 3) v)) s =
        .next ({ s.taken with sst.image := m }.replied 0x83 tag [0]) ∧
      m.get (.sys 3) = v ∧
      m.get (.sys 13) = (if v = 50000 then 47500 else 57000) ∧
      m.get (.sys 14) = (if v = 50000 then 48800 else 58560) ∧
      m.get (.sys 15) = (if v = 50000 then 51500 else 61800) ∧
      m.get (.sys 17) = (if v = 50000 then 49800 else 59760) ∧
      ∀ k, k ∉ [ItemName.sys 3, .sys 13, .sys 14, .sys 15, .sys 17] → m.get k = s.sst.image.get k)) ∧
  (∀ (s : State) (tag : Byte) (v w : Int) (f : Fin 38), f ∈ [13, 14, 15, 17] → v = 50000 ∨ v = 60000 →
    40000 ≤ w → w ≤ 70000 → s.sst.mode = .setup →
    s.takes 0x03 tag (itemBytes (.sys 3) v ++ itemBytes (.sys f) w) →
    ∃ t, exec (.write tag (itemBytes (.sys 3) v ++ itemBytes (.sys f) w)) s = .next t ∧
      t.sst.image.get (.sys 3) = v ∧ t.sst.image.get (.sys f) = w) ∧
  ∀ f : Fin 38, f ∈ [13, 14, 15, 17] → (ItemName.sys f).tunable = true

/-- After an accepted WRITE the changed items, and they alone, reach their owners in order (R172): BEN empties
its ring for rocof_window, CTX raises the row's revision for a plant, GSD and FDC map a unit whose installed
was changed, RSC clears a flag for EDGE to HOLD and moves the latch for a route (R22, R44, R61, R76, R120, R143). That each
FEEDER item is an event of its own at FDC, which orders the FEEDER notices of one WRITE, is log entry 51.
A plant written by several items counts once, at the last of them (log entry 17); an item named twice counts once, at
its last mention (log entry 24); a written mode moves the latch when the condition's truth is then another (log entry
22). A plant is set not installed where the stored item changes and then reads no (log entry 47); it returns to service
without a notice (log entry 38). -/
def Obligations.WrittenItemsReachTheirOwners : Prop :=
  (∀ (old new : Image) (l : List ItemName) (k : ItemName),
    (k ∈ changedItems old new l ↔ k ∈ l ∧ old.get k ≠ new.get k)) ∧
  (∀ (old new : Image) (l : List ItemName), (changedItems old new l).Nodup) ∧
  (∀ (old new : Image) (k : ItemName) (rest : List ItemName),
    changedItems old new [] = [] ∧
    (k ∈ rest ∨ old.get k = new.get k → changedItems old new (k :: rest) = changedItems old new rest) ∧
    (k ∉ rest → old.get k ≠ new.get k →
      changedItems old new (k :: rest) = k :: changedItems old new rest)) ∧
  (∀ (t s : State), itemsWritten t [] s = s) ∧
  (∀ (t s : State) (k : ItemName) (rest : List ItemName),
    itemsWritten t (k :: rest) s = itemsWritten t rest (itemWritten t k rest s)) ∧
  ∀ (t s : State) (rest : List ItemName),
    (∀ f, itemWritten t (.sys f) rest s = if f = 4 then { s with ben.ring := [] } else s) ∧
    (∀ p f, (∃ f', ItemName.plant p f' ∈ rest) → itemWritten t (.plant p f) rest s = s) ∧
    (∀ p f, (∀ f', ItemName.plant p f' ∉ rest) → itemWritten t (.plant p f) rest s =
      modPlant p (fun r =>
        if t.sst.image.get (.plant p 0) ≠ s.sst.image.get (.plant p 0) ∧ s.plantInstalled p = false then
          ⟨true, none, r.revision + 1⟩
        else { r with revision := r.revision + 1 }) s) ∧
    (∀ g f, itemWritten t (.gen g f) rest s =
      if f = 0 then gsdEvent (moveSet g (s.mappedSet g)) s else s) ∧
    (∀ i f, itemWritten t (.feeder i f) rest s = if f = 0 then fdcEvent (mapFeeder i) s else s) ∧
    (∀ c f, f ≠ 2 → f ≠ 5 → itemWritten t (.cond c f) rest s = s) ∧
    (∀ c, t.condHold c = false → s.condHold c = true →
      ((itemWritten t (.cond c 2) rest s).condRow c).flag = false) ∧
    (∀ c, t.condHold c = true ∨ s.condHold c = false →
      ((itemWritten t (.cond c 2) rest s).condRow c).flag = (s.condRow c).flag) ∧
    (∀ c, ((itemWritten t (.cond c 2) rest s).condRow c).last = (s.condRow c).last) ∧
    (∀ c, itemWritten t (.cond c 2) rest s =
      let b := if t.condHold c = false ∧ s.condHold c = true then
        modCond c (fun r => { r with flag := false, raisedBy := none }) s else s
      if b.truth c = t.truth c ∨ s.condRoute c = 0 then b
      else setLatch c (if b.truth c = true then (s.condRow c).latch.onTrue
        else (s.condRow c).latch.onFalse) b) ∧
    (∀ c, itemWritten t (.cond c 5) rest s =
      if t.condRoute c = 0 ∧ s.condRoute c ≠ 0 then
        (if s.truth c = true then setLatch c .active s else s)
      else if t.condRoute c ≠ 0 ∧ s.condRoute c = 0 then setLatch c .idle s
      else s) ∧
    (∀ l f, itemWritten t (.shed l f) rest s = s) ∧ ∀ f, itemWritten t (.merit f) rest s = s

/-- COMMIT, case by case (R165). -/
def Obligations.CommitTable : Prop :=
  ∀ (s : State) (tag b3 b2 b1 b0 : Byte), s.takes 0x04 tag [b3, b2, b1, b0] →
    let check := checkOf s.sst.image
    (s.sst.mode ≠ .setup →
      exec (.commit tag [b3, b2, b1, b0]) s = .next (s.taken.replied 0x84 tag [3])) ∧
    (s.sst.mode = .setup →
      (∀ pre k post, checkOrder = pre ++ k :: post → k.inRange (s.sst.image.get k) = false →
        (∀ q ∈ pre, q.inRange (s.sst.image.get q) = true) →
        exec (.commit tag [b3, b2, b1, b0]) s = .next (s.taken.replied 0x84 tag
          [4, byteOf k.codes.1, byteOf k.codes.2.1, byteOf k.codes.2.2])) ∧
      ((∀ k : ItemName, k.inRange (s.sst.image.get k) = true) →
        (check ≠ word32 b3 b2 b1 b0 →
          exec (.commit tag [b3, b2, b1, b0]) s =
            .next (s.taken.replied 0x84 tag (6 :: bytes32 check))) ∧
        (check = word32 b3 b2 b1 b0 →
          exec (.commit tag [b3, b2, b1, b0]) s =
            .next ((notify .mode 0 [1, 0, 2, setField s.activeLevels]
              { s.taken with
                sst.committed := some check
                sst.mode := .check
                sst.scan := some ⟨s.tick, 0, 0xFFFFFFFF⟩ }).replied 0x84 tag (0 :: bytes32 check)))))

/-- TUNE, case by case, the fields it may change, and what an accepted TUNE does (R174, R66, R76). That the check is
computed over the image as it stands also when the item has the value already is log entry 50. -/
def Obligations.TuneTable : Prop :=
  (∀ k : ItemName, k.tunable = true ↔ match k with
    | .sys f => f.val ∈ [5, 8, 9, 10, 11, 12, 13, 14, 15, 16, 17, 19, 20, 21]
    | .cond c f => f = 4 ∨ f = 5 ∨ c ≠ 0 ∧ (f = 0 ∨ f = 1)
    | _ => False) ∧
  ∀ (s : State) (tag t r f z b3 b2 b1 b0 : Byte),
    let body := [t, r, f, z, b3, b2, b1, b0]
    let v := (word32 b3 b2 b1 b0).toInt
    let name := if z = 0 then itemOfCodes t.toNat r.toNat f.toNat else none
    s.takes 0x09 tag body →
    (name = none → exec (.tune tag body) s = .next (s.taken.replied 0x89 tag [4])) ∧
    ∀ k, name = some k →
      (s.sst.mode ≠ .check → s.sst.mode ≠ .run →
        exec (.tune tag body) s = .next (s.taken.replied 0x89 tag [3])) ∧
      (s.sst.mode = .check ∨ s.sst.mode = .run →
        (k.tunable = false → exec (.tune tag body) s = .next (s.taken.replied 0x89 tag [5])) ∧
        (k.tunable = true → k.inRange v = false →
          exec (.tune tag body) s = .next (s.taken.replied 0x89 tag [4])) ∧
        (k.tunable = true → k.inRange v = true →
          let m := s.sst.image.put k v
          let u := { s.taken with
            sst.image := m
            sst.committed := some (checkOf m)
            sst.scan := some ⟨s.tick, 0, 0xFFFFFFFF⟩ }.replied 0x89 tag (0 :: bytes32 (checkOf m))
          exec (.tune tag body) s = .next (match k with
            | .cond c f =>
              if f = 0 ∨ f = 1 then cascade { u with handovers := [.examine] }
              else if f = 5 ∧ s.condRoute c = 0 ∧ u.condRoute c ≠ 0 then
                (if u.truth c = true then setLatch c .active u else u)
              else if f = 5 ∧ s.condRoute c ≠ 0 ∧ u.condRoute c = 0 then setLatch c .idle u
              else u
            | _ => u)))

/-- ENGAGE: refused outside CHECK; in CHECK the mode becomes RUN, each block starts RUN as the table of R166
says, and RSC then examines acceptance (R19, R53, R120, R143, R166, R169). That with min_run 0 a set mapped ONLINE has
the min-run met mark at once is log entry 20; that its time ONLINE is counted from here, log entry 39. -/
def Obligations.EngageStartsRun : Prop :=
  ∀ (s : State) (tag : Byte), s.takes 0x05 tag [] →
    (s.sst.mode ≠ .check → exec (.engage tag []) s = .next (s.taken.replied 0x85 tag [3])) ∧
    (s.sst.mode = .check → s.gsd.CrankOk → s.fdc.RestoreOk →
      (∀ g, (s.setRec g).origin = none ∧ (s.setRec g).stopOwner = none) → s.bss.program = .idle →
      ∃ u, exec (.engage tag []) s = .next (cascade u) ∧ u.handovers = [.examine] ∧
        u.sst = { s.sst with mode := .run } ∧ u.srx = s.srx ∧ u.rsc = s.rsc ∧ u.chains = s.chains ∧
        u.bss = s.bss ∧ u.tick = s.tick ∧ u.pending = s.pending ∧
        u.hlc.reply = some ⟨0x85, tag, [0]⟩ ∧ u.hlc.slots = s.hlc.slots.tail ∧
        (s.hlc.notices.length < 32 →
          u.hlc.notices[s.hlc.notices.length]? =
            some ⟨.mode, s.tick, 0, [2, 1, 3, setField s.activeLevels]⟩) ∧
        u.ben = { s.ben with ring := [], aPrev := s.sumCapacity, stableMs := 0 } ∧
        u.ctx.plants = s.ctx.plants ∧ u.ctx.capPct = 100 ∧ u.ctx.forcedZero = s.ctx.forcedZero ∧
        u.ctx.refreshCount = s.sysNat Sys.refreshPasses - 1 ∧
        (s.srx.busSilent = false → u.ctx.silent = s.ctx.silent ∧ ∀ p, u.ctx.waiting.get p = none) ∧
        (s.srx.busSilent = true → s.ctx.silent = none → s.ctx.forcedZero = false →
          u.ctx.silent = some ⟨fallbackOf (s.sys Sys.silentFallback), s.tick + 20⟩ ∧
          ∀ p, u.ctx.waiting.get p = fallbackCeiling s (fallbackOf (s.sys Sys.silentFallback)) p) ∧
        u.gsd.queue = [] ∧ u.gsd.permits = 0 ∧ u.fdc.queue = [] ∧
        (∀ g, let r := u.setRec g
          r.state = s.mappedSet g ∧ r.attempts = 0 ∧ r.retry = false ∧
          r.timer = (if s.mappedSet g = .runUp then some (s.dueIn (s.sysNat Sys.syncTime)) else none) ∧
          r.onlineSince = (if s.mappedSet g = .online then some s.tick else none) ∧
          r.minRunMet = (decide (s.mappedSet g = .online) && decide (s.sysNat Sys.minRun = 0)) ∧
          r.minRunTimer = (if s.mappedSet g = .online ∧ s.sysNat Sys.minRun ≠ 0 then
            some (s.dueIn (s.sysNat Sys.minRun * 1000)) else none) ∧ r.onlineMs = 0) ∧
        ∀ f, (u.feederRec f).state = s.mappedFeeder f)

/-- DISENGAGE and the SAFE request: where they are refused or change nothing, and else what every block gives
up within the event (R167, R168, R52, R53, R73, R94, R121, R144, R160). That the MODE notice stands before the notices
of every block is the model's choice, log entry 19; so is that the time ONLINE, a count of the model's own, is 0 after it
for every set, also for one that stays ONLINE, log entries 39 and 20. -/
def Obligations.LeavingRunAbandonsWork : Prop :=
  ∀ (s : State) (tag : Byte),
    (s.takes 0x06 tag [] → s.sst.mode ≠ .run →
      exec (.disengage tag []) s = .next (s.taken.replied 0x86 tag [3])) ∧
    (s.takes 0x08 tag [] → s.sst.mode = .safe →
      exec (.safe tag []) s = .next (s.taken.replied 0x88 tag [0])) ∧
    (s.takes 0x06 tag [] → s.sst.mode = .run → ∃ u, exec (.disengage tag []) s = .next u ∧
      unitsReleased s u ∧ programStopped s u ∧ (∀ n, u.chain n = abandoned (s.chain n)) ∧
      u.sst = { s.sst with mode := .check } ∧ u.srx = s.srx ∧ u.ben = s.ben ∧ u.tick = s.tick ∧
      u.pending = s.pending ∧ u.hlc.reply = some ⟨0x86, tag, [0]⟩ ∧ u.hlc.slots = s.hlc.slots.tail ∧
      (s.hlc.notices.length < 32 →
        u.hlc.notices[s.hlc.notices.length]? =
          some ⟨.mode, s.tick, 0, [1, 2, 4, setField s.activeLevels]⟩) ∧
      (∀ l, u.rsc.active.get l = none) ∧ (∀ c, u.condRow c = { s.condRow c with holdOff := none }) ∧
      u.rsc.auto = s.rsc.auto ∧ u.rsc.suppress = s.rsc.suppress ∧ u.rsc.faultLatch = s.rsc.faultLatch ∧
      u.ctx.forcedZero = false ∧ u.ctx.silent = none ∧ u.ctx.fault = s.ctx.fault ∧
      u.ctx.capPct = s.ctx.capPct ∧ u.ctx.refreshCount = s.ctx.refreshCount ∧
      u.ctx.plants = s.ctx.plants ∧ u.ctx.line = s.ctx.line ∧ ∀ p, u.ctx.waiting.get p = none) ∧
    (s.takes 0x08 tag [] → s.sst.mode ≠ .safe → ∃ u, exec (.safe tag []) s = .next u ∧
      unitsReleased s u ∧ programStopped s u ∧ (∀ n, u.chain n = abandoned (s.chain n)) ∧
      u.sst = { s.sst with mode := .safe, scan := none } ∧ u.srx = s.srx ∧ u.ben = s.ben ∧
      u.tick = s.tick ∧ u.pending = s.pending ∧
      u.hlc.reply = some ⟨0x88, tag, [0]⟩ ∧ u.hlc.slots = s.hlc.slots.tail ∧
      (s.hlc.notices.length < 32 →
        u.hlc.notices[s.hlc.notices.length]? =
          some ⟨.mode, s.tick, 0, [3, sField s.sst.mode.code, 5, setField s.activeLevels]⟩) ∧
      (∀ l, u.rsc.active.get l = none) ∧ (∀ c, u.condRow c = { s.condRow c with holdOff := none }) ∧
      u.rsc.auto = false ∧ u.rsc.suppress = s.rsc.suppress ∧ u.rsc.faultLatch = s.rsc.faultLatch ∧
      u.ctx.forcedZero = false ∧ u.ctx.silent = none ∧
      u.ctx.fault = some ⟨fallbackOf (s.sys Sys.faultFallback), s.tick + 1000⟩ ∧
      u.ctx.capPct = s.ctx.capPct ∧ u.ctx.refreshCount = s.ctx.refreshCount ∧
      u.ctx.plants = s.ctx.plants ∧ u.ctx.line = s.ctx.line ∧
      ∀ p, u.ctx.waiting.get p = fallbackCeiling s (fallbackOf (s.sys Sys.faultFallback)) p)

/-- RESTART, from any mode: SETUP, with every block reset or kept by its own table (R5, R19, R53, R56, R78, R97,
R125, R146, R164). Pass starts that wait are kept: log entry 26. That the MODE notice stands before the notices of
every block is the model's choice, log entry 19; that the program's fields are reset in IDLE too is log entry 44; that the
time ONLINE, a count of the model's own, is 0 after it for every set, also for one that stays ONLINE, log entries 39 and
20. -/
def Obligations.RestartResetsTheBlocks : Prop :=
  ∀ (s : State) (tag : Byte), s.takes 0x07 tag [] → ∃ u, exec (.restart tag []) s = .next u ∧
    unitsReleased s u ∧ u.srx = Srx.initial ∧
    u.ben = { Ben.initial with starts := s.ben.starts } ∧
    u.ctx.plants = s.ctx.plants ∧ (∀ p, u.ctx.waiting.get p = none) ∧ u.ctx.capPct = 100 ∧
    u.ctx.forcedZero = false ∧ u.ctx.refreshCount = 0 ∧ u.ctx.silent = none ∧ u.ctx.fault = none ∧
    u.ctx.line = s.ctx.line ∧
    u.rsc = Rsc.initial ∧ u.bss = Bss.initial ∧
    (∀ n, let c := u.chain n; let old := s.chain n
      c.count = 0 ∧ c.trigger = none ∧ c.flight = none ∧ c.kind = old.kind ∧ c.list = old.list ∧
      c.cursor = old.cursor ∧ c.mode = old.mode ∧ c.stepSize = old.stepSize ∧
      c.revision = (if old.count ≠ 0 ∨ old.trigger ≠ none ∨ old.flight ≠ none then old.revision + 1
        else old.revision)) ∧
    u.sst = ⟨.setup, s.sst.image, none, false, none⟩ ∧ u.tick = s.tick ∧ u.pending = s.pending ∧
    u.hlc.reply = some ⟨0x87, tag, [0]⟩ ∧ u.hlc.slots = s.hlc.slots.tail ∧
    u.hlc.sequence = s.hlc.sequence ∧ u.hlc.partialFrame = s.hlc.partialFrame ∧
    (s.hlc.notices.length < 32 →
      u.hlc.notices[s.hlc.notices.length]? =
        some ⟨.mode, s.tick, 0, [0, sField s.sst.mode.code, 1, setField s.activeLevels]⟩)

/-- The scan reads item k at its time into its running CRC, and at 1,000 ms compares: a match starts a new scan,
a mismatch makes SETTINGS_FAULT true, enters SAFE and moves the latch (R176, R177). Items not yet read are read
at the completion: log entry 30. The MODE notice stands before the notices of every block: log entry 19. An event of
the scan without a scan does nothing, and one told early lets the time pass to its moment: log entries 2 and 3. That the
time ONLINE, a count of the model's own, is 0 after a mismatch for every set, also for one that stays ONLINE: log entries
39 and 20. -/
def Obligations.ScanRepeatsUntilMismatch : Prop :=
  ∀ s : State, s.calm →
    (s.sst.scan = none → exec .scanItemRead s = .next s ∧ exec .scanCompletion s = .next s) ∧
    ∀ c, s.sst.scan = some c →
      (∀ k, checkOrder[c.position]? = some k →
        exec .scanItemRead s = .next
          { advanceTo (c.start + BitVec.ofNat 32 (c.position * 1000 / 369)) s with
            sst.scan := some ⟨c.start, c.position + 1,
              crc32Run c.crc (itemBytes k (s.sst.image.get k))⟩ }) ∧
      (369 ≤ c.position → exec .scanItemRead s = .next s) ∧
      (let a := advanceTo (c.start + 1000) s
        let crc := crc32Final ((checkOrder.drop c.position).foldl
          (fun reg k => crc32Run reg (itemBytes k (s.sst.image.get k))) c.crc)
        (s.sst.committed = some crc →
          exec .scanCompletion s = .next { a with sst.scan := some ⟨a.tick, 0, 0xFFFFFFFF⟩ }) ∧
        (s.sst.committed ≠ some crc → ∃ u, exec .scanCompletion s = .next u ∧
          u.sst = { s.sst with mode := .safe, settingsFault := true, scan := none } ∧
          unitsReleased a u ∧
          programStopped s u ∧ u.rsc.auto = false ∧ (∀ l, u.rsc.active.get l = none) ∧
          u.rsc.faultLatch = (match s.rsc.faultLatch with
            | .idle => .active | .clearedUnacked => .active | l => l) ∧
          (s.hlc.notices.length < 32 →
            u.hlc.notices[s.hlc.notices.length]? =
              some ⟨.mode, a.tick, 0, [3, sField s.sst.mode.code, 6, setField s.activeLevels]⟩) ∧
          u.ctx.fault = some ⟨fallbackOf (s.sys Sys.faultFallback), a.tick + 1000⟩ ∧
          ∀ p, u.ctx.waiting.get p = fallbackCeiling s (fallbackOf (s.sys Sys.faultFallback)) p))

/-! ### Conditions, acceptance and alarms -/

/-- AUTO, FORCE and CLEAR, case by case, and what setting and clearing a flag changes (R62, R63, R65, R74). That
AUTO answers RANGE to a code that is neither ON nor OFF is log entry 23. -/
def Obligations.AutoForceAndClear : Prop :=
  (∀ (s : State) (tag b : Byte), s.takes 0x0A tag [b] →
    exec (.auto tag [b]) s = .next (
      if b = 0 then { s.taken with rsc.auto := false }.replied 0x8A tag [0]
      else if b = 1 then
        (if s.rsc.auto = true then s.taken.replied 0x8A tag [0]
          else cascade (examine ({ s.taken with rsc.auto := true }.replied 0x8A tag [0])))
      else s.taken.replied 0x8A tag [4])) ∧
  (∀ (s : State) (tag b : Byte), s.takes 0x0B tag [b] →
    (b = 0 ∨ 23 < b.toNat → exec (.force tag [b]) s = .next (s.taken.replied 0x8B tag [4])) ∧
    ∀ c : Fin 24, b.toNat = c.val → c ≠ 0 →
      ((s.condRow c).holdOff ≠ none →
        exec (.force tag [b]) s = .next (s.taken.replied 0x8B tag [8])) ∧
      ((s.condRow c).holdOff = none →
        exec (.force tag [b]) s =
          .next (cascade (examine ((setFlag c none s.taken).replied 0x8B tag [0]))))) ∧
  (∀ (s : State) (tag b : Byte), s.takes 0x0C tag [b] →
    (23 < b.toNat → exec (.clear tag [b]) s = .next (s.taken.replied 0x8C tag [4])) ∧
    ∀ c : Fin 24, b.toNat = c.val →
      exec (.clear tag [b]) s = .next ((clearFlag c s.taken).replied 0x8C tag [0])) ∧
  ∀ (s : State) (c : Fin 24) (subject : Option Nat) (t : State),
    t = setFlag c subject s ∨ t = clearFlag c s →
    (t = setFlag c subject s → (t.condRow c).flag = true) ∧
    (t = clearFlag c s → (t.condRow c).flag = false) ∧
    (t.condRow c).last = (s.condRow c).last ∧ (t.condRow c).holdOff = (s.condRow c).holdOff ∧
    (t.condRow c).latch = (if t.truth c = s.truth c ∨ s.condRoute c = 0 then (s.condRow c).latch
      else if t.truth c = true then (s.condRow c).latch.onTrue else (s.condRow c).latch.onFalse) ∧
    (∀ d, d ≠ c → t.condRow d = s.condRow d) ∧
    t = { s with
      rsc.rows := t.rsc.rows, hlc.notices := t.hlc.notices, hlc.lost := t.hlc.lost }

/-- ACK (R75), the table of R74 and the truth it follows; a latch that changes queues an ALARM notice; the two
alarm lines (R76). -/
def Obligations.AckAndLatchTable : Prop :=
  (∀ l : Latch,
    l.onTrue = (match l with
      | .idle => .active | .active => .active | .activeAcked => .activeAcked
      | .clearedUnacked => .active) ∧
    l.onFalse = (match l with
      | .idle => .idle | .active => .clearedUnacked | .activeAcked => .idle
      | .clearedUnacked => .clearedUnacked) ∧
    l.onAck = (match l with
      | .idle => .idle | .active => .activeAcked | .activeAcked => .activeAcked
      | .clearedUnacked => .idle)) ∧
  (∀ (s : State) (c : Fin 24), s.truth c =
    (if c.val ∈ [0, 1, 2, 3, 4, 6, 9, 10, 11, 12, 13] ∧ s.condHold c = true then (s.condRow c).last
      else (s.condRow c).flag)) ∧
  (∀ (s : State) (c : Fin 24) (l : Latch),
    ((s.condRow c).latch = l → setLatch c l s = s) ∧
    ((s.condRow c).latch ≠ l → setLatch c l s =
      notify .alarm c.val [sField l.code, sField (s.condRoute c)]
        (modCond c (fun r => { r with latch := l }) s))) ∧
  (∀ (s : State) (l : Latch),
    (s.rsc.faultLatch = l → setFaultLatch l s = s) ∧
    (s.rsc.faultLatch ≠ l → setFaultLatch l s =
      notify .alarm 24 [sField l.code, 1] { s with rsc.faultLatch := l })) ∧
  (∀ (s : State) (tag b : Byte), s.takes 0x15 tag [b] →
    (∀ c : Fin 24, b.toNat = c.val → exec (.ack tag [b]) s =
      .next ((setLatch c (s.condRow c).latch.onAck s.taken).replied 0x95 tag [0])) ∧
    (b.toNat = 24 → exec (.ack tag [b]) s =
      .next ((setFaultLatch s.rsc.faultLatch.onAck s.taken).replied 0x95 tag [0])) ∧
    (b.toNat = 255 → ∃ u,
      exec (.ack tag [b]) s =
        .next ((setFaultLatch s.rsc.faultLatch.onAck u).replied 0x95 tag [0]) ∧
      u = (List.finRange 24).foldl (fun t c => setLatch c (t.condRow c).latch.onAck t) s.taken ∧
      ∀ c, u.condRow c = { s.condRow c with latch := (s.condRow c).latch.onAck }) ∧
    (24 < b.toNat → b.toNat < 255 →
      exec (.ack tag [b]) s = .next (s.taken.replied 0x95 tag [4]))) ∧
  ∀ s : State, s.resetLow = false →
    (s.alarmA = true ↔ s.rsc.faultLatch ≠ .idle ∨
      ∃ c, s.condRoute c = 1 ∧ (s.condRow c).latch ≠ .idle) ∧
    (s.alarmB = true ↔ ∃ c, s.condRoute c = 2 ∧ (s.condRow c).latch ≠ .idle)

/-- The end of a hold-off timer (R60), and a completion report (R71, R72, R64): discarded without an entry; else
the entry goes, the hold-off starts, C0's special cases act with the latches of the flags they clear (R74), the COMPLETED notice is queued and RSC examines
acceptance. That C0 DONE clears the flags for an entry of kind NOTICE too is log entry 16; that the expiry of an idle
hold-off changes nothing and one told early lets the time pass to its due tick are log entries 2 and 3. -/
def Obligations.HoldOffAndCompletion : Prop :=
  (∀ (s : State) (c : Fin 24), s.calm →
    ((s.condRow c).holdOff = none → exec (.holdOffExpiry c) s = .next s) ∧
    ∀ due, (s.condRow c).holdOff = some due →
      let a := modCond c (fun r => { r with holdOff := none }) (advanceTo due s)
      ((s.condRow c).flag = false → exec (.holdOffExpiry c) s = .next a) ∧
      ((s.condRow c).flag = true → exec (.holdOffExpiry c) s = .next (cascade (examine a)))) ∧
  ∀ (s : State) (c : Fin 24) (o : StepOutcome),
    ((∀ l e, s.rsc.active.get l = some e → e.cond ≠ c) → complete c o s = s) ∧
    ∀ l e, s.rsc.active.get l = some e → e.cond = c →
      (∀ l' e', s.rsc.active.get l' = some e' → e'.cond = c → l' = l) →
      ∃ b : State, complete c o s = examine (notify .completed c.val
          [BitVec.ofNat 32 (l.val + 1), sField e.kind.code, sField o.code, s.tick - e.since] b) ∧
        (∀ l', b.rsc.active.get l' = if l' = l then none else s.rsc.active.get l') ∧
        (∀ d, (b.condRow d).holdOff = if d = c then
            (if s.condHoldOff c = 0 then none else some (s.dueIn (s.condHoldOff c)))
          else (s.condRow d).holdOff) ∧
        (∀ d, (b.condRow d).flag =
          if c = 0 ∧ o = .done ∧ 1 ≤ d.val ∧ d.val ≤ 13 then false else (s.condRow d).flag) ∧
        (∀ d, (b.condRow d).last = (s.condRow d).last) ∧
        (∀ d, (b.condRow d).latch = if b.truth d = s.truth d ∨ s.condRoute d = 0 then (s.condRow d).latch
          else (s.condRow d).latch.onFalse) ∧
        b.rsc.suppress = (if c = 0 ∧ (o = .failed ∨ e.kind = .notice) then true else s.rsc.suppress) ∧
        b.rsc.auto = s.rsc.auto ∧ b.rsc.faultLatch = s.rsc.faultLatch ∧
        b = { s with rsc := b.rsc, hlc.notices := b.hlc.notices, hlc.lost := b.hlc.lost }

/-- How a presented value and a raise act on a condition's row (R57 to R60, R64) and its latch (R74), and that RSC examines
acceptance after them when a flag was set (R66). The rows of one presentation are updated in the order in which its list
names them, and so stand the ALARM notices of the latches that move: R57 and R74 leave this order open, and it is the
model's choice, log entry 49. That the truth before and after is read with the settings as they stand, so that a storage
fault moves no latch by itself, is log entry 57. -/
def Obligations.PresentedValuesAndRaises : Prop :=
  (∀ (s : State) (c : Fin 24) (v : Bool), let t := presentValue c v s
    (t.condRow c).last = v ∧ (t.condRow c).holdOff = (s.condRow c).holdOff ∧
    (t.condRow c).flag =
      (if v = false then (if s.condHold c = true then false else (s.condRow c).flag)
        else if (s.condRow c).holdOff ≠ none then (s.condRow c).flag
        else if s.condHold c = true then
          (if s.hasEntry c = true ∨ c = 0 ∧ s.rsc.suppress = true then (s.condRow c).flag else true)
        else if (s.condRow c).last = false then true else (s.condRow c).flag) ∧
    (t.condRow c).latch = (if t.truth c = s.truth c ∨ s.condRoute c = 0 then (s.condRow c).latch
      else if t.truth c = true then (s.condRow c).latch.onTrue else (s.condRow c).latch.onFalse) ∧
    (∀ d, d ≠ c → t.condRow d = s.condRow d) ∧
    t.rsc.suppress = (if c = 0 ∧ v = false then false else s.rsc.suppress) ∧
    t.rsc.active = s.rsc.active ∧ t.rsc.auto = s.rsc.auto ∧ t.rsc.faultLatch = s.rsc.faultLatch ∧
    t = { s with rsc := t.rsc, hlc.notices := t.hlc.notices, hlc.lost := t.hlc.lost }) ∧
  (∀ (s : State) (values : List (Fin 24 × Bool)),
    let t := values.foldl (fun s p => presentValue p.1 p.2 s) s
    let sets := ∃ p ∈ values, p.2 = true ∧ (s.condRow p.1).holdOff = none ∧
      (if s.condHold p.1 = true then
          s.hasEntry p.1 = false ∧ ¬(p.1 = 0 ∧ s.rsc.suppress = true)
        else (s.condRow p.1).last = false)
    (sets → present values s = examine t) ∧ (¬sets → present values s = t)) ∧
  ∀ (s : State) (c : Fin 24) (subject : Nat),
    ((s.condRow c).holdOff = none ∧ (s.condHold c = false ∨ s.hasEntry c = false) →
      takeRaise c subject s = examine (setFlag c (some subject) s)) ∧
    ((s.condRow c).holdOff ≠ none ∨ s.condHold c = true ∧ s.hasEntry c = true →
      takeRaise c subject s = s)

/-- One examination (R66 to R70): outside RUN, or with no condition eligible, nothing; else the eligible condition
of the highest level, the lowest number among equals, is tested against the active set, and accepted by the four
items of R69 or left. The third value of the notice is absent unless a raise set the flag: log entry 15. -/
def Obligations.AcceptanceTakesTheBestCandidate : Prop :=
  ∀ s : State,
    let level : Fin 24 → Nat := fun c => if c = 0 then 7 else s.condLevel c
    let eligible : Fin 24 → Prop := fun c =>
      (s.condRow c).flag = true ∧ (s.condRow c).holdOff = none ∧
      (∀ l e, s.rsc.active.get l = some e → e.cond ≠ c) ∧
      (c ≠ 0 → s.condEnabled c = true ∧ 1 ≤ s.condLevel c ∧ s.condLevel c ≤ 6 ∧ s.rsc.auto = true)
    let admitted : Fin 24 → Prop := fun c =>
      if c = 0 then s.rsc.active.get 6 = none
      else if s.sys Sys.levels = 1 then
        ∀ l, s.rsc.active.get l ≠ none → l.val + 1 < level c
      else ∀ l, s.rsc.active.get l = none
    (s.sst.mode ≠ .run → examine s = s) ∧
    ((∀ c, ¬eligible c) → examine s = s) ∧
    ∀ c, s.sst.mode = .run → eligible c →
      (∀ d, eligible d → level d < level c ∨ level d = level c ∧ c ≤ d) →
      (¬admitted c → examine s = s) ∧
      (admitted c →
        let kind : ResponseKind :=
          if c = 0 then (if s.sys Sys.blackStartPermitted = 1 then .blackStart else .notice)
          else s.condKind c
        let b := clearFlag c s
        examine s = emit (if kind = .notice then .complete .rsc c .done else .startResponse c kind)
          (notify .accepted c.val
            ([BitVec.ofNat 32 (level c), sField kind.code] ++
              ((s.condRow c).raisedBy.map fun n => [BitVec.ofNat 32 n]).getD [])
            { b with
              rsc.active := b.rsc.active.put ⟨(level c - 1) % 7, by omega⟩ (some ⟨c, kind, s.tick⟩) }))

/-! ### Chains -/

/-- BIND: the cases of R79 in its order, and the row that an OK writes, with its revision and notice (R81). That a trigger
of none has the absent code in the notice is log entry 11; that the count of 0 for SHED stands for the entries of the list
that do not read 0 is log entry 54. -/
def Obligations.BindTable : Prop :=
  ∀ (s : State) (tag chain trigger kind list count mode step : Byte) (rev : List Byte),
    rev.length = 0 ∨ rev.length = 2 →
    let body := chain :: trigger :: kind :: list :: count :: mode :: step :: rev
    s.takes 0x0D tag body →
    let feeders : List (Fin 16) := s.shedList ⟨list.toNat % 4, by omega⟩
    let bad :=
      5 < chain.toNat ∨ trigger = 0 ∨ 23 < trigger.toNat ∧ trigger ≠ 255 ∨ 5 < kind.toNat ∨
      2 < mode.toNat ∨ kind = 0 ∧ 3 < list.toNat ∨
      (kind = 4 ∨ kind = 5) ∧ (step.toNat < 1 ∨ 100 < step.toNat) ∨ 16 < count.toNat ∨
      mode = 1 ∧ kind ≠ 0 ∧ kind ≠ 1 ∨ kind = 0 ∧ count = 0 ∧ feeders = []
    (bad → exec (.bind tag body) s = .next (s.taken.replied 0x8D tag [4])) ∧
    ∀ n : Fin 6, n.val = chain.toNat → ¬bad →
      let row := s.chain n
      (¬revisionGood rev row.revision → exec (.bind tag body) s =
        .next (s.taken.replied 0x8D tag (7 :: bytes16 row.revision))) ∧
      (revisionGood rev row.revision → row.flight ≠ none →
        exec (.bind tag body) s = .next (s.taken.replied 0x8D tag [9])) ∧
      (revisionGood rev row.revision → row.flight = none → ∃ (new : Chain) (tr : Option (Fin 24)),
        (tr.map fun c => c.val) = (if trigger = 255 then none else some trigger.toNat) ∧
        new.trigger = tr ∧ new.kind.code = kind.toNat ∧ new.mode.code = mode.toNat ∧
        (new.list.map fun l => l.val) = (if kind = 0 then some list.toNat else none) ∧
        new.stepSize = (if kind = 4 ∨ kind = 5 then some step.toNat else none) ∧
        new.cursor = 0 ∧ new.flight = none ∧ new.revision = row.revision + 1 ∧
        new.count = (if count ≠ 0 then count.toNat else if kind = 0 then feeders.length else 16) ∧
        exec (.bind tag body) s = .next ((notify .chain n.val
          [0, optField (tr.map fun c => (c.val : Int)), BitVec.ofNat 32 kind.toNat,
            BitVec.ofNat 32 new.count]
          { s.taken with chains := s.chains.put n new }).replied 0x8D tag [0]))

/-- UNBIND, case by case and in its order; it is taken in every mode and raises nothing (R80, with the notice of
R81). -/
def Obligations.UnbindTable : Prop :=
  ∀ (s : State) (tag chain : Byte) (rev : List Byte), rev.length = 0 ∨ rev.length = 2 →
    s.takes 0x0E tag (chain :: rev) →
    (5 < chain.toNat →
      exec (.unbind tag (chain :: rev)) s = .next (s.taken.replied 0x8E tag [4])) ∧
    ∀ n : Fin 6, n.val = chain.toNat →
      let row := s.chain n
      (¬revisionGood rev row.revision → exec (.unbind tag (chain :: rev)) s =
        .next (s.taken.replied 0x8E tag (7 :: bytes16 row.revision))) ∧
      (revisionGood rev row.revision → row.flight ≠ none →
        exec (.unbind tag (chain :: rev)) s = .next (s.taken.replied 0x8E tag [9])) ∧
      (revisionGood rev row.revision → row.flight = none → row.count = 0 →
        exec (.unbind tag (chain :: rev)) s = .next (s.taken.replied 0x8E tag [0])) ∧
      (revisionGood rev row.revision → row.flight = none → row.count ≠ 0 →
        exec (.unbind tag (chain :: rev)) s = .next ((notify .chain n.val [1]
          { s.taken with
            chains := s.chains.put n
              { row with count := 0, trigger := none, revision := row.revision + 1 } }).replied
            0x8E tag [0]))

/-- STEP: the cases of R93 in its order; a COUNT step (R90) and a CAP step (R89) in full, with the cap moved and
clamped (R49); a SHED step of SINGLE mode (R84), a RESTORE step of SINGLE mode (R86), a START step (R87) and a
STOP step (R88), each with what exhausts it. A CAP or COUNT step is answered with one unit: log entry 33; the list of a
SHED step is without the entries that read 0: log entry 54. Steps of BURST mode are stated by BurstScans. -/
def Obligations.StepTable : Prop :=
  ∀ (s : State) (tag chain : Byte), s.takes 0x0F tag [chain] →
    let refused : Byte → Answer := fun st => .next (s.taken.replied 0x8F tag [st])
    (5 < chain.toNat → exec (.step tag [chain]) s = refused 4) ∧
    ∀ n : Fin 6, n.val = chain.toNat →
      let row := s.chain n
      (s.sst.mode ≠ .run → exec (.step tag [chain]) s = refused 3) ∧
      (s.sst.mode = .run → s.rsc.active.get 6 ≠ none → exec (.step tag [chain]) s = refused 9) ∧
      (s.sst.mode = .run → s.rsc.active.get 6 = none → row.count = 0 →
        exec (.step tag [chain]) s = refused 8) ∧
      (s.sst.mode = .run → s.rsc.active.get 6 = none → row.count ≠ 0 → row.flight ≠ none →
        exec (.step tag [chain]) s = refused 9) ∧
      (s.sst.mode = .run → s.rsc.active.get 6 = none → row.count ≠ 0 → row.flight = none →
        let base := s.taken
        let answered : Nat → State → Answer := fun units u =>
          .next (cascade (u.replied 0x8F tag
            (0 :: bytes32 (BitVec.ofNat 32 units) ++ bytes32 (BitVec.ofNat 32 (u.chain n).count))))
        let exhausted : Nat → Answer := fun cursor =>
          answered 0 (completeStep n .none (beginStep n none [] 0 cursor base))
        (row.mode = .count → exec (.step tag [chain]) s =
          answered 1 (completeStep n .done (beginStep n none [] (row.count - 1) row.cursor base))) ∧
        (row.mode ≠ .count → row.kind = .capDown ∨ row.kind = .capUp →
          let size : Int := (row.stepSize.getD 0 : Nat)
          let cap := max 0 (min 100
            (if row.kind = .capDown then s.ctx.capPct - size else s.ctx.capPct + size))
          let begun := beginStep n none [] (row.count - 1) row.cursor base
          exec (.step tag [chain]) s = answered 1 (completeStep n .done
            (if cap = s.ctx.capPct then begun
              else notify .plant 0 [0, sField cap] { begun with ctx.capPct := cap }))) ∧
        (row.mode = .single → row.kind = .shed →
          let feeders := s.chainFeeders row
          let sheddable : Fin 16 → Prop := fun f => s.feederInstalled f = true ∧
            s.feederEssential f = false ∧ (s.feederRec f).outOfService = false ∧
            (s.feederRec f).state = .closed
          ((∀ f ∈ feeders.drop row.cursor, ¬sheddable f) →
            exec (.step tag [chain]) s = exhausted feeders.length) ∧
          ∀ pre f post, feeders.drop row.cursor = pre ++ f :: post → sheddable f →
            (∀ q ∈ pre, ¬sheddable q) →
            exec (.step tag [chain]) s = answered 1 (tripFeeder f (.chain n)
              (beginStep n none [.feeder f] (row.count - 1) (row.cursor + pre.length + 1) base))) ∧
        (row.mode = .single → row.kind = .restore →
          (s.fdc.queue = [] → exec (.step tag [chain]) s = exhausted row.cursor) ∧
          ∀ f rest, s.fdc.queue = f :: rest →
            (s.need f + s.sys Sys.restoreMargin ≤ s.ben.record.h.getD 0 →
              exec (.step tag [chain]) s = answered 1 (closeFeeder f (.chain n)
                (beginStep n none [.feeder f] (row.count - 1) row.cursor base))) ∧
            (s.ben.record.h.getD 0 < s.need f + s.sys Sys.restoreMargin →
              exec (.step tag [chain]) s =
                answered 0 (completeStep n .none (beginStep n none [] row.count row.cursor base)))) ∧
        (row.mode = .single → row.kind = .start →
          (s.startSelection = none → exec (.step tag [chain]) s = exhausted row.cursor) ∧
          ∀ g, s.startSelection = some g → exec (.step tag [chain]) s =
            answered 1 (startSet g (.chain n)
              (beginStep n none [.set g] (row.count - 1) row.cursor base))) ∧
        (row.mode = .single → row.kind = .stop →
          (s.stopSelection = none ∨ s.onlineCount < 2 →
            exec (.step tag [chain]) s = exhausted row.cursor) ∧
          ∀ g, s.stopSelection = some g → 2 ≤ s.onlineCount → exec (.step tag [chain]) s =
            answered 1 (stopSet g (some (.chain n))
              (beginStep n none [.set g] (row.count - 1) row.cursor base))))

/-- A BURST step of SHED takes the first feeders in list order that are not passed over, up to the count (R85); of
RESTORE the entries from the head that fit the running headroom (R86); the units taken are tripped or closed in
ascending number, so that their notices stand in that order (R127). A scan that finds nothing exhausts a SHED step, and
an empty queue a RESTORE step; a head that does not fit ends a RESTORE step with NONE and its count kept. STEP of a
BURST chain takes such a step and is answered with its units and the count after it (R93). That the list is without the
entries that read 0, and that a feeder named twice counts twice and is tripped once, is log entry 54. -/
def Obligations.BurstScans : Prop :=
  (∀ (s : State) (want pos : Nat) (l : List (Fin 16)), let found := s.shedScan want pos l
    found.1 = (l.filter s.sheddable).take want ∧
    (found.1.length < want → found.2 = pos + l.length) ∧
    (0 < want → found.1.length = want → ∃ pre f post, l = pre ++ f :: post ∧
      (pre ++ [f]).filter s.sheddable = found.1 ∧ s.sheddable f = true ∧
      found.2 = pos + pre.length + 1)) ∧
  (∀ (s : State) (want : Nat) (h : Int) (l : List (Fin 16)), ∃ k, s.restoreScan want h l = l.take k ∧
    k ≤ want ∧ k ≤ l.length ∧
    (∀ i (hi : i < l.length), i < k →
      s.need l[i] + s.sys Sys.restoreMargin ≤ h - ((l.take i).map s.need).sum) ∧
    (∀ hk : k < l.length, k < want →
      h - ((l.take k).map s.need).sum < s.need l[k] + s.sys Sys.restoreMargin)) ∧
  (∀ (s : State) (n : Fin 6) (c : Option (Fin 24)), (s.chain n).mode = .burst →
    let row := s.chain n
    let rising : List (Fin 16) → List (Fin 16) := fun l => (List.finRange 16).filter fun f => decide (f ∈ l)
    (row.kind = .shed → ∀ units cursor,
      s.shedScan row.count row.cursor ((s.chainFeeders row).drop row.cursor) = (units, cursor) →
      (units ≠ [] →
        takeStep n c s = ((rising units).foldl (fun s f => tripFeeder f (.chain n) s)
          (beginStep n c ((rising units).map .feeder) (row.count - units.length)
            (min cursor (s.chainFeeders row).length) s), units.length)) ∧
      (units = [] →
        (row.count ≠ 0 → min cursor (s.chainFeeders row).length = (s.chainFeeders row).length) ∧
        takeStep n c s = (completeStep n .none
          (beginStep n c [] 0 (min cursor (s.chainFeeders row).length) s), 0))) ∧
    (row.kind = .restore →
      (s.fdc.queue = [] →
        takeStep n c s = (completeStep n .none (beginStep n c [] 0 row.cursor s), 0)) ∧
      (∀ f rest, s.fdc.queue = f :: rest → s.headroom < s.need f + s.sys Sys.restoreMargin →
        takeStep n c s = (completeStep n .none (beginStep n c [] row.count row.cursor s), 0)) ∧
      ∀ units, s.restoreScan row.count s.headroom s.fdc.queue = units → units ≠ [] →
        takeStep n c s = ((rising units).foldl (fun s f => closeFeeder f (.chain n) s)
          (beginStep n c ((rising units).map .feeder) (row.count - units.length) row.cursor s),
          units.length))) ∧
  ∀ (s : State) (tag chain : Byte) (n : Fin 6), s.takes 0x0F tag [chain] → n.val = chain.toNat →
    s.sst.mode = .run → s.rsc.active.get 6 = none → (s.chain n).count ≠ 0 → (s.chain n).flight = none →
    (s.chain n).mode = .burst → ∀ u units, takeStep n none s.taken = (u, units) →
      exec (.step tag [chain]) s = .next (cascade (u.replied 0x8F tag
        (0 :: bytes32 (BitVec.ofNat 32 units) ++ bytes32 (BitVec.ofNat 32 (u.chain n).count))))

/-- How a step begins (R83), how the end of a unit is counted, and the five items of a completion (R91); the chain
that serves an acceptance (R82). That unbound is 1 for yes in the END notice is log entry 55. -/
def Obligations.StepsCompleteWithTheirLastUnit : Prop :=
  (∀ (s : State) (n : Fin 6) (c : Option (Fin 24)) (units : List PlantUnit) (count cursor : Nat),
    beginStep n c units count cursor s = { s with
      chains := s.chains.put n { s.chain n with
        flight := some ⟨c, units, false⟩, count := count, cursor := cursor,
        revision := (s.chain n).revision + 1 } }) ∧
  (∀ (s : State) (n : Fin 6) (o : StepOutcome), let row := s.chain n
    completeStep n o s =
      let b := notify .chain n.val
        [2, sField o.code, BitVec.ofNat 32 row.count, if row.count = 0 then 1 else 0]
        { s with
          chains := s.chains.put n { row with
            flight := none, trigger := if row.count = 0 then none else row.trigger,
            revision := row.revision + 1 } }
      { b with handovers := s.handovers ++
          (match row.flight with
            | some ⟨some c, _, _⟩ => [.complete .chu c o]
            | _ => []) ++
          (if row.count = 0 then [.raise ⟨14 + n.val, by omega⟩ n.val] else []) }) ∧
  (∀ (s : State) (n : Fin 6) (u : PlantUnit) (ok : Bool), let row := s.chain n
    (row.flight = none → unitEnded n u ok s = s) ∧
    ∀ fl, row.flight = some fl →
      (u ∉ fl.units → unitEnded n u ok s = s) ∧
      (u ∈ fl.units →
        let fl' : Flight := ⟨fl.forCond, fl.units.erase u, fl.failed || !ok⟩
        let b := { s with chains := s.chains.put n { row with flight := some fl' } }
        (fl'.units ≠ [] → unitEnded n u ok s = b) ∧
        (fl'.units = [] →
          unitEnded n u ok s = completeStep n (if fl'.failed = true then .failed else .done) b))) ∧
  ∀ (s : State) (c : Fin 24),
    let serves : Fin 6 → Prop := fun n =>
      (s.chain n).trigger = some c ∧ 0 < (s.chain n).count ∧ (s.chain n).flight = none
    let start := deliver (.startResponse c .chains) s
    ((∀ n, ¬serves n) → start = emit (.complete .chu c .none) s) ∧
    ∀ n, serves n → (∀ m < n, ¬serves m) → start = (takeStep n (some c) s).1

/-! ### Generating sets -/

/-- A set's change of state, with everything tied to it: its timer and marks (R98, R105), the UNIT notice (R99), the
crank queue and the permits (R100), the end of a start and of a stop with their reports (R114, R116), and the word
to BSS (R151); nothing else changes. That out of service is 1 for yes in the notice is log entry 55; that the notice
carries the attempts as the move leaves them, 0 in ONLINE, is log entry 58; that BSS is told before the reports of a
start's or a stop's end are made, log entry 62; that the time ONLINE is counted from the move, log entry 39. -/
def Obligations.SetMovesFollowTheRules : Prop :=
  ∀ (s : State) (g : Fin 6) (new : SetState),
    let r := s.setRec g
    let t := moveSet g new s
    let r' := t.setRec g
    (r.state = new → t = s) ∧
    (r.state ≠ new →
      r' = { r with
        state := new
        attempts := if new = .online then 0 else r.attempts
        timer := if s.sst.mode ≠ .run then none else match new with
          | .cranking => some (s.dueIn (s.sysNat Sys.crankTime))
          | .runUp => some (s.dueIn (s.sysNat Sys.syncTime))
          | .stopping => some (s.dueIn (s.sysNat Sys.stopTime))
          | .rest => some (s.dueIn (s.sysNat Sys.restTime))
          | _ => none
        onlineSince := if new = .online then some s.tick else none
        minRunMet := decide (new = .online) && decide (s.sysNat Sys.minRun = 0)
        minRunTimer := if new = .online ∧ s.sysNat Sys.minRun ≠ 0 then
          some (s.dueIn (s.sysNat Sys.minRun * 1000)) else none
        onlineMs := 0
        origin := if new ∈ [.online, .lockout, .unavailable, .standby] then none else r.origin
        stopOwner := if r.state = .stopping then none else r.stopOwner } ∧
      (∀ h, h ≠ g → t.setRec h = s.setRec h) ∧
      t.gsd.queue = (if r.state = .queued then s.gsd.queue.erase g else s.gsd.queue) ++
        (if new = .queued then [g] else []) ∧
      t.gsd.permits = s.gsd.permits - (if r.state = .cranking then 1 else 0) +
        (if new = .cranking then 1 else 0) ∧
      t.handovers = s.handovers ++
        (if s.sst.mode = .run ∧ s.bss.program ≠ .idle then [.bssSetMoved g r.state new] else []) ++
        (if new ∈ [.online, .lockout, .unavailable, .standby] then
          match r.origin with
          | some (.response c) => [.complete .gsd c (if new = .online then .done else .failed)]
          | some (.chain n) => [.chainUnitEnd n (.set g) (decide (new = .online))]
          | some .blackstart => [.bssStartEnd g (decide (new = .online))]
          | _ => []
        else []) ++
        (if r.state = .stopping then
          match r.stopOwner with
          | some (.response c) => [.complete .gsd c .done]
          | some (.chain n) => [.chainUnitEnd n (.set g) (decide (new ≠ .lockout))]
          | _ => []
        else []) ∧
      t = { notify .unit (g.val + 1)
          [0x5345, sField new.code, BitVec.ofNat 32 r'.attempts, if r.outOfService = true then 1 else 0] s
        with gsd := t.gsd, handovers := t.handovers })

/-- One event counts once in a row's revision (R97); serving cranks the head while a permit is free, and afterwards
no set waits beside a free permit (R100); a start request (R101) and a stop (R116); the responses START_NEXT (R115) and
STOP_NEXT (R116) of an acceptance; the selections of R113. That the merit list is without the entries that read 0 is log
entry 54; that min_run, read at each stop selection (R96), is held against the time ONLINE beside the mark, log entry 39. -/
def Obligations.QueueStartsAndSelections : Prop :=
  (∀ (f : State → State) (s : State), (gsdEvent f s) = { f s with gsd.sets := (gsdEvent f s).gsd.sets } ∧
    ∀ g, let a := s.setRec g
      let b := (f s).setRec g
      (gsdEvent f s).setRec g =
        if a.state = b.state ∧ a.attempts = b.attempts ∧ a.retry = b.retry ∧
          a.onlineSince = b.onlineSince ∧ a.minRunMet = b.minRunMet ∧ a.origin = b.origin ∧
          a.stopOwner = b.stopOwner ∧ a.outOfService = b.outOfService ∧ a.runSeconds = b.runSeconds
        then b else { b with revision := b.revision + 1 }) ∧
  (∀ s : State,
    (s.gsd.queue = [] ∨ s.sysNat Sys.crankPermits ≤ s.gsd.permits → serveQueue s = s) ∧
    (∀ n g rest, s.gsd.queue = g :: rest → s.gsd.permits < s.sysNat Sys.crankPermits →
      serveUpTo (n + 1) s = serveUpTo n (moveSet g .cranking s)) ∧
    (s.gsd.CrankOk → (serveQueue s).gsd.CrankOk ∧
      ((serveQueue s).gsd.queue = [] ∨ s.sysNat Sys.crankPermits ≤ (serveQueue s).gsd.permits))) ∧
  (∀ (s : State) (g : Fin 6) (o : Origin),
    (s.sst.mode = .run ∧ (s.setRec g).state = .standby → startSet g o s =
      gsdEvent (fun s => serveQueue (moveSet g .queued
        (modSet g (fun r => { r with attempts := 0, origin := some o }) s))) s) ∧
    (¬(s.sst.mode = .run ∧ (s.setRec g).state = .standby) → startSet g o s =
      { s with handovers := s.handovers ++ match o with
        | .response c => [.complete .gsd c .failed]
        | .chain n => [.chainUnitEnd n (.set g) false]
        | .blackstart => [.bssStartEnd g false]
        | _ => [] })) ∧
  (∀ (s : State) (g : Fin 6) (owner : Option Origin), stopSet g owner s =
    gsdEvent (fun s => moveSet g .stopping
      (modSet g (fun r => { r with retry := false, stopOwner := owner }) s)) s) ∧
  (∀ (s : State) (c : Fin 24),
    let start := deliver (.startResponse c .startNext) s
    let stop := deliver (.startResponse c .stopNext) s
    (s.startSelection = none → start = emit (.complete .gsd c .none) s) ∧
    (∀ g, s.startSelection = some g → start = startSet g (.response c) s) ∧
    (s.stopSelection = none ∨ s.onlineCount < 2 → stop = emit (.complete .gsd c .none) s) ∧
    ∀ g, s.stopSelection = some g → 2 ≤ s.onlineCount → stop = stopSet g (some (.response c)) s) ∧
  ∀ s : State,
    let starts : Fin 6 → Bool := fun g => s.setInstalled g &&
      decide ((s.setRec g).state = .standby) && !(s.setRec g).outOfService
    let stops : Fin 6 → Bool := fun g => s.setInstalled g &&
      decide ((s.setRec g).state = .online) && (s.setRec g).minRunMet &&
      decide (s.sysNat Sys.minRun * 1000 ≤ (s.setRec g).onlineMs)
    (s.sys Sys.policy ≠ 1 → s.startSelection = s.meritList.find? starts ∧
      s.stopSelection = s.meritList.reverse.find? stops) ∧
    (s.sys Sys.policy = 1 →
      (∀ g, s.startSelection = some g ↔ ∃ pre post, s.meritList.filter starts = pre ++ g :: post ∧
        (∀ h ∈ pre, (s.setRec g).runSeconds < (s.setRec h).runSeconds) ∧
        ∀ h ∈ post, (s.setRec g).runSeconds ≤ (s.setRec h).runSeconds) ∧
      ∀ g, s.stopSelection = some g ↔ ∃ pre post, s.meritList.filter stops = pre ++ g :: post ∧
        (∀ h ∈ pre, (s.setRec h).runSeconds ≤ (s.setRec g).runSeconds) ∧
        ∀ h ∈ post, (s.setRec h).runSeconds < (s.setRec g).runSeconds)

/-- GENSET: the cases of R117 in order, START and STOP (R118), OUT, IN and CLEAR_LOCKOUT (R119); and RUNTIME
(R112). One notice covers a flag and a state changed together: log entry 18. That a STOP of a set out of service leaves
it UNAVAILABLE and not STANDBY is log entry 45. -/
def Obligations.GensetAndRuntimeTables : Prop :=
  (∀ (s : State) (tag unit action : Byte) (rev : List Byte), rev.length = 0 ∨ rev.length = 2 →
    let body := unit :: action :: rev
    s.takes 0x10 tag body →
    let refused : List Byte → Answer := fun bs => .next (s.taken.replied 0x90 tag bs)
    let done : State → Answer := fun u => .next (cascade (u.replied 0x90 tag [0]))
    (unit = 0 ∨ 6 < unit.toNat ∨ 4 < action.toNat → exec (.genset tag body) s = refused [4]) ∧
    ∀ g : Fin 6, g.val + 1 = unit.toNat → action.toNat ≤ 4 →
      let r := s.setRec g
      (s.setInstalled g = false → exec (.genset tag body) s = refused [10]) ∧
      (s.setInstalled g = true → action.toNat ≤ 1 → s.sst.mode ≠ .run →
        exec (.genset tag body) s = refused [3]) ∧
      (s.setInstalled g = true → 2 ≤ action.toNat ∨ s.sst.mode = .run →
        (s.rsc.active.get 6 ≠ none → exec (.genset tag body) s = refused [9]) ∧
        (s.rsc.active.get 6 = none → ¬revisionGood rev r.revision →
          exec (.genset tag body) s = refused (7 :: bytes16 r.revision)) ∧
        (s.rsc.active.get 6 = none → revisionGood rev r.revision →
          (action = 0 → exec (.genset tag body) s =
            if r.state = .standby then done (startSet g .manual s.taken) else refused [8]) ∧
          (action = 1 → exec (.genset tag body) s =
            let freed : SetState := if r.outOfService = true then .unavailable else .standby
            match r.state with
            | .queued => done (gsdEvent (moveSet g freed) s.taken)
            | .rest => done (gsdEvent (moveSet g freed) s.taken)
            | .cranking => done (gsdEvent (fun x => serveQueue (moveSet g freed x)) s.taken)
            | .runUp => done (stopSet g none s.taken)
            | .online => done (stopSet g none s.taken)
            | _ => refused [8]) ∧
          (action = 2 → exec (.genset tag body) s =
            if r.state ∈ [.cranking, .runUp, .online, .stopping] ∨ r.running = true then refused [8]
            else if r.outOfService = true then refused [0]
            else done (gsdEvent (fun x =>
              let y := modSet g (fun r => { r with
                outOfService := true
                attempts := if r.state = .rest ∨ r.state = .lockout then 0 else r.attempts }) x
              if r.state = .unavailable then notifySet g y else moveSet g .unavailable y) s.taken)) ∧
          (action = 3 → exec (.genset tag body) s =
            if r.outOfService = false then refused [0]
            else done (gsdEvent (fun x =>
              let y := modSet g (fun r => { r with outOfService := false }) x
              if r.state = .unavailable ∧ r.ready = true then moveSet g .standby y
              else notifySet g y) s.taken)) ∧
          (action = 4 → exec (.genset tag body) s =
            if r.state = .lockout then
              done (gsdEvent (fun x => moveSet g (s.mappedSet g)
                (modSet g (fun r => { r with attempts := 0 }) x)) s.taken)
            else refused [8])))) ∧
  ∀ (s : State) (tag unit v3 v2 v1 v0 : Byte) (rev : List Byte), rev.length = 0 ∨ rev.length = 2 →
    let body := unit :: v3 :: v2 :: v1 :: v0 :: rev
    s.takes 0x13 tag body →
    let refused : List Byte → Answer := fun bs => .next (s.taken.replied 0x93 tag bs)
    (unit = 0 ∨ 6 < unit.toNat → exec (.runtime tag body) s = refused [4]) ∧
    ∀ g : Fin 6, g.val + 1 = unit.toNat →
      let r := s.setRec g
      (s.setInstalled g = false → exec (.runtime tag body) s = refused [10]) ∧
      (s.setInstalled g = true → s.rsc.active.get 6 ≠ none →
        exec (.runtime tag body) s = refused [9]) ∧
      (s.setInstalled g = true → s.rsc.active.get 6 = none → ¬revisionGood rev r.revision →
        exec (.runtime tag body) s = refused (7 :: bytes16 r.revision)) ∧
      (s.setInstalled g = true → s.rsc.active.get 6 = none → revisionGood rev r.revision →
        exec (.runtime tag body) s = .next ((modSet g (fun r => { r with
          runSeconds := word32 v3 v2 v1 v0, revision := r.revision + 1 }) s.taken).replied 0x93 tag [0]))

/-- What a set input's change does: a set not installed takes the level alone and is held UNAVAILABLE (R96); else the
mapping outside RUN, `f` in RUN, all as one event at GSD (R102, R105, R107, R109, R110, R111, R120); and the table of the
mapping (R120). That an edge to the level the input has changes nothing is the model's choice, log entry 3; so is it that a
set which a storage fault makes not installed becomes UNAVAILABLE at this event, log entry 53. -/
def Obligations.SetInputsFollowTheirTables : Prop :=
  (∀ (s : State) (g : Fin 6), let r := s.setRec g
    s.mappedSet g =
      if s.setInstalled g = false then .unavailable
      else if r.running = true then (if r.breaker = true then .online else .runUp)
      else if r.ready = true ∧ r.outOfService = false then .standby
      else .unavailable) ∧
  ∀ (s : State) (g : Fin 6), s.calm →
    let r := s.setRec g
    let acts : Instr → Prop → (SetRec → SetRec) → (State → State) → Prop := fun c changed put f =>
      (¬changed → exec c s = .next s) ∧
      (changed → s.setInstalled g = false → exec c s =
        .next (cascade (gsdEvent (heldUnavailable g r.state) (modSet g put s)))) ∧
      (changed → s.setInstalled g = false → r.state = .unavailable → exec c s = .next (modSet g put s)) ∧
      (changed → s.setInstalled g = true → s.sst.mode ≠ .run → exec c s =
        .next (cascade (gsdEvent (fun x => moveSet g (x.mappedSet g) x) (modSet g put s)))) ∧
      (changed → s.setInstalled g = true → s.sst.mode = .run → exec c s =
        .next (cascade (gsdEvent f (modSet g put s))))
    let atRest : SetState := if r.ready = true ∧ r.outOfService = false then .standby else .unavailable
    let toRunUp : State → State := fun x =>
      if r.breaker = true then moveSet g .online (moveSet g .runUp x) else moveSet g .runUp x
    let trip : State → State := emit (.raise 5 (g.val + 1))
    acts (.runningRises g) (r.running = false) (fun r => { r with running := true })
      (fun x => match r.state with
        | .unavailable => toRunUp x
        | .standby => toRunUp x
        | .rest => toRunUp x
        | .queued => serveQueue (toRunUp x)
        | .cranking => serveQueue (toRunUp x)
        | _ => x) ∧
    acts (.runningFalls g) (r.running = true) (fun r => { r with running := false })
      (fun x => match r.state with
        | .stopping =>
          let y := modSet g (fun r => { r with retry := false }) x
          if r.retry = false then moveSet g atRest y
          else if r.attempts < s.sysNat Sys.maxAttempts then moveSet g .rest y
          else emit (.raise 7 (g.val + 1)) (moveSet g .lockout y)
        | .online => moveSet g atRest (trip x)
        | .runUp => moveSet g atRest x
        | _ => x) ∧
    acts (.breakerRises g) (r.breaker = false) (fun r => { r with breaker := true })
      (fun x => if r.state = .runUp ∧ r.running = true then moveSet g .online x else x) ∧
    acts (.breakerFalls g) (r.breaker = true) (fun r => { r with breaker := false })
      (fun x => if r.state = .online ∧ r.running = true then moveSet g .runUp (trip x) else x) ∧
    acts (.readyRises g) (r.ready = false) (fun r => { r with ready := true })
      (fun x => if r.state = .unavailable ∧ r.outOfService = false then moveSet g .standby x else x) ∧
    acts (.readyFalls g) (r.ready = true) (fun r => { r with ready := false })
      (fun x => match r.state with
        | .standby => moveSet g .unavailable x
        | .queued => moveSet g .unavailable x
        | .rest => moveSet g .unavailable x
        | .cranking => serveQueue (moveSet g .unavailable x)
        | _ => x)

/-- The expiry of a set's crank, sync, rest, stop and min-run timers (R98, R102, R103, R106, R108), and the run seconds of
a set (R112): whenever time passes, each installed set that runs counts its whole seconds, and keeps what is left below
1,000 ms. An expiry that cannot occur changes nothing, and one told early comes at its due time: log entries 2 and 3. That
RUN_SECOND lets the time pass to the end of the set's second, and that a second counted is an event of the row, is log
entry 40; that the time of a set in ONLINE is counted too, log entry 39. That a set which a storage fault makes not installed is held UNAVAILABLE at the expiry of a timer of its own
(R96) is log entry 53. That the UNIT notice of STOPPING at a sync expiry carries the increased attempts is log entry 58. -/
def Obligations.SetTimersExpire : Prop :=
  (∀ (s : State) (d : Nat), let t := advance d s
    (∀ g, let r := s.setRec g
      t.setRec g = onlineCounted d (if r.running = true ∧ s.setInstalled g = true then { r with
        accumulator := (r.accumulator + d) % 1000
        runSeconds := r.runSeconds + BitVec.ofNat 32 ((r.accumulator + d) / 1000)
        revision := r.revision + BitVec.ofNat 16 ((r.accumulator + d) / 1000) } else r)) ∧
    t = { s with
      tick := s.tick + BitVec.ofNat 32 d, ben.stableMs := min 600000 (s.ben.stableMs + d)
      gsd.sets := t.gsd.sets }) ∧
  ∀ (s : State) (g : Fin 6), s.calm →
    let r := s.setRec g
    let raiseFail : State → State := emit (.raise 7 (g.val + 1))
    let acts : Instr → SetState → (State → State) → Prop := fun c st f =>
      (r.state ≠ st ∨ r.timer = none → exec c s = .next s) ∧
      ∀ due, r.state = st → r.timer = some due →
        exec c s = .next (cascade (gsdEvent (if s.setInstalled g = true then f else heldUnavailable g st)
          (advanceTo due s)))
    acts (.crankTimerExpiry g) .cranking (fun x =>
      let y := modSet g (fun r => { r with attempts := r.attempts + 1 }) x
      serveQueue (if r.attempts + 1 < s.sysNat Sys.maxAttempts then moveSet g .rest y
        else raiseFail (moveSet g .lockout y))) ∧
    acts (.syncTimerExpiry g) .runUp (fun x =>
      moveSet g .stopping (modSet g (fun r => { r with attempts := r.attempts + 1, retry := true }) x)) ∧
    acts (.restTimerExpiry g) .rest (fun x => serveQueue (moveSet g .queued x)) ∧
    acts (.stopTimerExpiry g) .stopping (fun x =>
      raiseFail (moveSet g .lockout (modSet g (fun r => { r with retry := false }) x))) ∧
    (r.minRunTimer = none → exec (.minRunTimerExpiry g) s = .next s) ∧
    (∀ due, r.minRunTimer = some due → s.setInstalled g = true → exec (.minRunTimerExpiry g) s =
      .next (gsdEvent (modSet g fun r => { r with minRunMet := true, minRunTimer := none })
        (advanceTo due s))) ∧
    (∀ due, r.minRunTimer = some due → s.setInstalled g = false → exec (.minRunTimerExpiry g) s =
      .next (cascade (gsdEvent (heldUnavailable g r.state) (advanceTo due s)))) ∧
    (s.setInstalled g = false ∨ r.running = false → exec (.runSecond g) s = .next s) ∧
    (s.setInstalled g = true → r.running = true →
      let t := advance (1000 - r.accumulator) s
      exec (.runSecond g) s = .next t ∧
      (r.accumulator ≤ 1000 →
        t.setRec g = onlineCounted (1000 - r.accumulator)
          { r with accumulator := 0, runSeconds := r.runSeconds + 1, revision := r.revision + 1 }))

/-- When the rest timer of a set in REST expires, the set becomes QUEUED at the tail of the crank queue, its
attempts and origin kept, and GSD serves the queue (R103). A set that is not installed is held UNAVAILABLE (R96): what its
timer then does is stated in SetTimersExpire. -/
def Obligations.RestTimerQueuesTheSet : Prop :=
  ∀ (s : State) (g : Fin 6) (due : Tick), s.calm →
    s.setInstalled g = true →
    (s.setRec g).state = .rest → (s.setRec g).timer = some due → s.remaining due = 0 →
      let q := moveSet g .queued s
      exec (.restTimerExpiry g) s = .next (cascade (gsdEvent (fun x => serveQueue (moveSet g .queued x)) s)) ∧
      (q.setRec g).state = .queued ∧ q.gsd.queue = s.gsd.queue ++ [g] ∧
      (q.setRec g).attempts = (s.setRec g).attempts ∧ (q.setRec g).origin = (s.setRec g).origin ∧
      ((serveQueue q).setRec g).attempts = (s.setRec g).attempts ∧
      ((serveQueue q).setRec g).origin = (s.setRec g).origin

/-! ### Feeders and plants -/

/-- A feeder's change of state, with its timer, pre-shed load, queue place and notice (R126, R127, R135, R136); a trip
(R128) and a close (R131); one event counts once in a revision (R125; log entry 17); RESTORE_NEXT of an acceptance
(R137); and FEEDER, case by case (R138 to R140). That OUT and IN, which change flag and state together, queue one notice
and count once is log entry 18; that out of service is 1 for yes in the notice, log entry 55. -/
def Obligations.FeederTable : Prop :=
  (∀ (s : State) (f : Fin 16) (new : FeederState),
    let r := s.feederRec f
    let t := moveFeeder f new s
    let r' := t.feederRec f
    (r.state = new → t = s) ∧
    (r.state ≠ new →
      r' = { r with
        state := new
        timer := if s.sst.mode = .run ∧ (new = .tripping ∨ new = .closing) then
          some (s.dueIn (s.sysNat Sys.breakerTime)) else none
        preShed := if new = .closed then none else r.preShed } ∧
      (∀ h, h ≠ f → t.feederRec h = s.feederRec h) ∧
      t.fdc.queue = (if new = .openShed then [f] else []) ++
        (if r.state = .openShed then s.fdc.queue.erase f else s.fdc.queue) ∧
      t.fdc.clearFlag = s.fdc.clearFlag ∧ t.fdc.settleOwed = s.fdc.settleOwed ∧
      t = { notify .feeder (f.val + 1) [sField new.code, optField (r.origin.map Origin.code),
          optField r'.preShed, if r.outOfService = true then 1 else 0] s with fdc := t.fdc })) ∧
  (∀ (e : State → State) (s : State), fdcEvent e s = { e s with fdc.feeders := (fdcEvent e s).fdc.feeders } ∧
    ∀ f, let a := s.feederRec f
      let b := (e s).feederRec f
      (fdcEvent e s).feederRec f =
        if a.state = b.state ∧ a.origin = b.origin ∧ a.preShed = b.preShed ∧
          a.outOfService = b.outOfService then b else { b with revision := b.revision + 1 }) ∧
  (∀ (s : State) (f : Fin 16) (o : Origin), s.sst.mode = .run →
    ((s.feederRec f).state = .closed → ∀ e, s.srx.heads.get ⟨f.val + 15, by omega⟩ = e →
      tripFeeder f o s = fdcEvent (fun x => moveFeeder f .tripping (modFeeder f (fun r => { r with
        origin := some o
        preShed := if e.judgement = .fresh then e.value.map (max 0) else none }) x)) s) ∧
    ((s.feederRec f).state ≠ .closed → tripFeeder f o s = match o with
      | .chain n => emit (.chainUnitEnd n (.feeder f) false) s
      | _ => s) ∧
    ((s.feederRec f).state = .openShed ∨ (s.feederRec f).state = .openExt → closeFeeder f o s =
      fdcEvent (fun x => moveFeeder f .closing (modFeeder f (fun r => { r with origin := some o }) x)) s) ∧
    ((s.feederRec f).state ≠ .openShed → (s.feederRec f).state ≠ .openExt → closeFeeder f o s = match o with
      | .chain n => emit (.chainUnitEnd n (.feeder f) false) s
      | .response c => emit (.complete .fdc c .failed) s
      | .blackstart => emit (.bssCloseEnd f false) s
      | _ => s)) ∧
  (∀ (s : State) (c : Fin 24), let start := deliver (.startResponse c .restoreNext) s
    (s.fdc.queue = [] → start = emit (.complete .fdc c .none) s) ∧
    ∀ f rest, s.fdc.queue = f :: rest →
      (s.need f + s.sys Sys.restoreMargin ≤ s.ben.record.h.getD 0 →
        start = closeFeeder f (.response c) s) ∧
      (s.ben.record.h.getD 0 < s.need f + s.sys Sys.restoreMargin →
        start = emit (.complete .fdc c .none) s)) ∧
  ∀ (s : State) (tag unit action : Byte) (rev : List Byte), rev.length = 0 ∨ rev.length = 2 →
    let body := unit :: action :: rev
    s.takes 0x11 tag body →
    let refused : List Byte → Answer := fun bs => .next (s.taken.replied 0x91 tag bs)
    let done : State → Answer := fun u => .next (u.replied 0x91 tag [0])
    (unit = 0 ∨ 16 < unit.toNat ∨ 3 < action.toNat → exec (.feeder tag body) s = refused [4]) ∧
    ∀ f : Fin 16, f.val + 1 = unit.toNat → action.toNat ≤ 3 →
      let r := s.feederRec f
      (s.feederInstalled f = false → exec (.feeder tag body) s = refused [10]) ∧
      (s.feederInstalled f = true → action.toNat ≤ 1 → s.sst.mode ≠ .run →
        exec (.feeder tag body) s = refused [3]) ∧
      (s.feederInstalled f = true → 2 ≤ action.toNat ∨ s.sst.mode = .run →
        (s.rsc.active.get 6 ≠ none → exec (.feeder tag body) s = refused [9]) ∧
        (s.rsc.active.get 6 = none → ¬revisionGood rev r.revision →
          exec (.feeder tag body) s = refused (7 :: bytes16 r.revision)) ∧
        (s.rsc.active.get 6 = none → revisionGood rev r.revision →
          (action = 0 → exec (.feeder tag body) s =
            if r.state = .closed then done (tripFeeder f .host s.taken) else refused [8]) ∧
          (action = 1 → exec (.feeder tag body) s =
            if r.state = .openShed ∨ r.state = .openExt then done (closeFeeder f .host s.taken)
            else refused [8]) ∧
          (action = 2 → exec (.feeder tag body) s =
            if r.state = .tripping ∨ r.state = .closing then refused [8]
            else if r.state = .outOfService then refused [0]
            else done (fdcEvent (fun x => moveFeeder f .outOfService
              (modFeeder f (fun r => { r with outOfService := true, preShed := none }) x)) s.taken)) ∧
          (action = 3 → exec (.feeder tag body) s =
            if r.state = .outOfService ∧ r.outOfService = true then
              done (fdcEvent (fun x => moveFeeder f (if r.breaker = true then .closed else .openExt)
                (modFeeder f (fun r => { r with outOfService := false }) x)) s.taken)
            else refused [0])))

/-- BREAKER of a feeder (R129, R132, R133, R143) and the expiry of its breaker timer (R130); the trip that the
clear flag asks for, and the settlement of the clear (R141); the table of the mapping (R143). An edge to the level present and the expiry of a timer
that does not run change nothing, and an expiry told early lets the time pass to its due tick: log entries 2 and 3. The
end report of a trip or a close, and the raise of C8, stand before the settlement: log entry 43. That in RUN the installed item is not read, the
state alone deciding, is log entry 52. -/
def Obligations.FeederInputsAndTimer : Prop :=
  (∀ (s : State) (f : Fin 16), let r := s.feederRec f
    s.mappedFeeder f = (if s.feederInstalled f = false ∨ r.outOfService = true then .outOfService
      else if r.breaker = true then .closed else .openExt) ∧
    mapFeeder f s = (let t := moveFeeder f (s.mappedFeeder f) s
      if (t.feederRec f).state = .closed then modFeeder f (fun r => { r with preShed := none }) t else t)) ∧
  (∀ (s : State) (f : Fin 16), s.calm →
    let r := s.feederRec f
    let acts : Instr → Bool → (State → State) → Prop := fun c level e =>
      let a := modFeeder f (fun r => { r with breaker := level }) s
      (r.breaker = level → exec c s = .next s) ∧
      (r.breaker ≠ level → r.state = .outOfService → s.feederInstalled f = false ∨ r.outOfService = true →
        exec c s = .next a) ∧
      (r.breaker ≠ level → s.sst.mode ≠ .run → exec c s = .next (fdcEvent (mapFeeder f) a)) ∧
      (r.breaker ≠ level → s.sst.mode = .run →
        exec c s = .next (cascade (fdcEvent e a)))
    let noOrigin : State → State := modFeeder f fun r => { r with origin := none }
    acts (.feederBreakerFalls f) false (fun x => match r.state with
      | .tripping => settleClear (match r.origin with
        | some (.chain n) =>
          emit (.chainUnitEnd n (.feeder f) true) (noOrigin (moveFeeder f .openShed x))
        | some .blackstart => emit (.bssTripEnd f true) (noOrigin (moveFeeder f .openShed x))
        | _ => noOrigin (moveFeeder f .openExt x))
      | .closed => settleClear (moveFeeder f .openExt x)
      | .failed => settleClear (moveFeeder f .openExt x)
      | _ => x) ∧
    acts (.feederBreakerRises f) true (fun x => match r.state with
      | .closing =>
        let y := noOrigin (moveFeeder f .closed x)
        settleClear (tripIfClearing f (match r.origin with
          | some (.chain n) => emit (.chainUnitEnd n (.feeder f) true) y
          | some (.response c) => emit (.complete .fdc c .done) y
          | some .blackstart => emit (.bssCloseEnd f true) y
          | _ => y))
      | .openShed => settleClear (tripIfClearing f (moveFeeder f .closed x))
      | .openExt => settleClear (tripIfClearing f (moveFeeder f .closed x))
      | .failed => settleClear (tripIfClearing f (moveFeeder f .closed x))
      | _ => x) ∧
    (r.timer = none ∨ r.state ≠ .tripping ∧ r.state ≠ .closing →
      exec (.breakerTimerExpiry f) s = .next s) ∧
    ∀ due, r.timer = some due → r.state = .tripping ∨ r.state = .closing →
      exec (.breakerTimerExpiry f) s = .next (cascade (fdcEvent (fun x =>
        let y := noOrigin (moveFeeder f .failed x)
        let z := match r.origin with
          | some (.chain n) => emit (.chainUnitEnd n (.feeder f) false) y
          | some (.response c) => if r.state = .closing then emit (.complete .fdc c .failed) y else y
          | some .blackstart =>
            if r.state = .closing then emit (.bssCloseEnd f false) y else emit (.bssTripEnd f false) y
          | _ => y
        settleClear (emit (.raise 8 (f.val + 1)) z)) (advanceTo due s)))) ∧
  (∀ (s : State) (f : Fin 16), tripIfClearing f s =
    if s.fdc.clearFlag = true ∧ (s.feederRec f).state = .closed ∧ s.sst.mode = .run then
      beginTrip f .blackstart s else s) ∧
  ∀ s : State,
    let moving := ∃ f, s.feederInstalled f = true ∧
      ((s.feederRec f).state = .tripping ∨ (s.feederRec f).state = .closing)
    (s.fdc.settleOwed = false ∨ moving → settleClear s = s) ∧
    (s.fdc.settleOwed = true → ¬moving →
      settleClear s = emit .bssSettled { s with fdc.settleOwed := false })

/-- PLANT, case by case (R45): a change of service raises the revision and is followed by a PLANT notice. A code
above 1 is RANGE: log entry 23. In service is 1 for yes in the notice: log entry 55. -/
def Obligations.PlantTable : Prop :=
  ∀ (s : State) (tag unit action : Byte) (rev : List Byte), rev.length = 0 ∨ rev.length = 2 →
    let body := unit :: action :: rev
    s.takes 0x12 tag body →
    let refused : List Byte → Answer := fun bs => .next (s.taken.replied 0x92 tag bs)
    (unit = 0 ∨ 8 < unit.toNat ∨ 1 < action.toNat → exec (.plant tag body) s = refused [4]) ∧
    ∀ p : Fin 8, p.val + 1 = unit.toNat → action.toNat ≤ 1 →
      let row := s.plantRow p
      let wanted := decide (action = 0)
      (s.plantInstalled p = false → exec (.plant tag body) s = refused [10]) ∧
      (s.plantInstalled p = true → ¬revisionGood rev row.revision →
        exec (.plant tag body) s = refused (7 :: bytes16 row.revision)) ∧
      (s.plantInstalled p = true → revisionGood rev row.revision →
        (row.inService = wanted → exec (.plant tag body) s = refused [0]) ∧
        (row.inService ≠ wanted → exec (.plant tag body) s =
          .next ((notify .plant (p.val + 1) [if wanted = true then 1 else 0]
            { s.taken with
              ctx.plants := s.ctx.plants.put p
                { row with inService := wanted, revision := row.revision + 1 } }).replied 0x92 tag [0])))

/-- The pending set goes out lowest plant first, and what has gone out is the last ceiling sent (R46); what a pass
makes pending by the deadband and the refresh (R47, R48); the ticks of the two fallbacks (R51, R52). That a pass counts
and refreshes in RUN during a fallback too is log entry 21; that the frame is on the line at once log entry 10; that
CEILING_FRAME_SEND and a tick do nothing when nothing waits or stands, and a tick told early lets the time pass, log
entries 2 and 3; that a ceiling goes out also to a plant which a storage fault makes not installed while it waits, log
entry 56. -/
def Obligations.CeilingsAndFallbackTicks : Prop :=
  (∀ s : State, s.calm →
    ((∀ p, s.ctx.waiting.get p = none) → exec .ceilingFrameSend s = .next s) ∧
    ∀ p c, s.ctx.waiting.get p = some c → (∀ q < p, s.ctx.waiting.get q = none) →
      exec .ceilingFrameSend s = .next { s with
        ctx.waiting := s.ctx.waiting.put p none
        ctx.plants := s.ctx.plants.put p { s.plantRow p with
          lastSent := some c, revision := (s.plantRow p).revision + 1 }
        ctx.line := some (ceilingFrameBytes p c) }) ∧
  (∀ (p : Fin 8) (c : Int),
    ceilingFrameBytes p c =
      let head := BitVec.ofNat 8 (0xC0 + (p.val + 1))
      let v := BitVec.ofInt 16 c
      let covered := [head, v.extractLsb' 8 8, v.extractLsb' 0 8]
      covered ++ [crc8 covered]) ∧
  (∀ (s : State) (cs : Tab 8 (Option Int)),
    (s.sst.mode ≠ .run → takeCeilings cs s = s) ∧
    (s.sst.mode = .run →
      let t := takeCeilings cs s
      let refresh := s.sysNat Sys.refreshPasses ≤ s.ctx.refreshCount + 1
      t = { s with ctx.refreshCount := t.ctx.refreshCount, ctx.waiting := t.ctx.waiting } ∧
      t.ctx.refreshCount = (if refresh then 0 else s.ctx.refreshCount + 1) ∧
      ∀ p, t.ctx.waiting.get p = match cs.get p with
        | none => s.ctx.waiting.get p
        | some c =>
          let last := (s.plantRow p).lastSent
          if s.plantInstalled p = true ∧ (refresh ∨ s.ctx.silent = none ∧ s.ctx.fault = none ∧
            (last = none ∨ ∃ l, last = some l ∧ (c < l ∨ l < c ∧ s.sys Sys.ceilingDeadband ≤ c - l)))
          then some (if s.ctx.forcedZero = true then 0 else c)
          else s.ctx.waiting.get p)) ∧
  ∀ s : State, s.calm →
    let filled : Fallback → State → Tab 8 (Option Int) := fun choice a => Tab.ofFn fun p =>
      if s.plantInstalled p = false then a.ctx.waiting.get p
      else match choice with
        | .hold => a.ctx.waiting.get p
        | .zero => some 0
        | .full => some (if s.ctx.forcedZero = true ∨ (s.plantRow p).inService = false then 0
          else s.plantCapacity p)
    (s.ctx.silent = none → exec .silentFallbackTick s = .next s) ∧
    (s.ctx.fault = none → exec .faultFallbackTick s = .next s) ∧
    (∀ run, s.ctx.silent = some run → let a := advanceTo run.due s
      exec .silentFallbackTick s = .next { a with
        ctx.silent := some ⟨run.choice, run.due + 20⟩, ctx.waiting := filled run.choice a }) ∧
    ∀ run, s.ctx.fault = some run → let a := advanceTo run.due s
      exec .faultFallbackTick s = .next { a with
        ctx.fault := some ⟨run.choice, run.due + 1000⟩, ctx.waiting := filled run.choice a }

/-! ### Black start -/

/-- BLACKSTART, case by case (R159), and the entry to CLEARING with its actions in order (R148, R157): forced-zero
(R50), the withdrawal and the stop (R122), the clear with its settlement, reported at once where no installed feeder
moves and owed otherwise (R141). Notice order and subjects are log entry 27; that a set out
of service is withdrawn to UNAVAILABLE is log entry 45; that forced-zero is 1 when set in the PLANT notice, log entry
55. -/
def Obligations.BlackstartTableAndClearing : Prop :=
  (∀ (s : State) (tag b : Byte), s.takes 0x14 tag [b] →
    (1 < b.toNat → exec (.blackstart tag [b]) s = .next (s.taken.replied 0x94 tag [4])) ∧
    (b.toNat ≤ 1 → s.sst.mode ≠ .run →
      exec (.blackstart tag [b]) s = .next (s.taken.replied 0x94 tag [3])) ∧
    (b.toNat ≤ 1 → s.sst.mode = .run → s.bss.program ≠ .failed →
      exec (.blackstart tag [b]) s = .next (s.taken.replied 0x94 tag [8])) ∧
    (s.sst.mode = .run → s.bss.program = .failed →
      (b = 0 → exec (.blackstart tag [b]) s = .next (cascade
        ((enterClearing .retry { s.taken with bss.restarts := 0 }).replied 0x94 tag [0]))) ∧
      (b = 1 →
        let lifted := if s.ctx.forcedZero = true then
            notify .plant 0 [1, 0] { s.taken with ctx.forcedZero := false, ben.aPrev := 0 }
          else { s.taken with ben.aPrev := 0 }
        exec (.blackstart tag [b]) s = .next (cascade ((emit (.complete .bss 0 .failed)
          (notify .blackstart lifted.bssSubject [0, BitVec.ofNat 32 s.bss.restarts, 9]
            { lifted with bss.program := .idle })).replied 0x94 tag [0]))))) ∧
  (∀ (cause : Cause) (s : State), enterClearing cause s =
    clearBus (stopAllSets (withdrawSets (setForcedZero
      (notify .blackstart 0 [1, BitVec.ofNat 32 s.bss.restarts, sField cause.code]
        { s with bss := ⟨.clearing, none, s.bss.restarts, Tab.const 6 false, none, none, none, none,
            none, none, none⟩ }))))) ∧
  (∀ (s : State) (c : Fin 24), deliver (.startResponse c .blackStart) s =
    enterClearing .accepted { s with bss.restarts := 0 }) ∧
  (∀ s : State, (s.ctx.forcedZero = true → setForcedZero s = s) ∧
    (s.ctx.forcedZero = false → ∃ w : Tab 8 (Option Int),
      setForcedZero s = notify .plant 0 [1, 1] { s with ctx.forcedZero := true, ctx.waiting := w } ∧
      ∀ p, w.get p = if s.ctx.waiting.get p ≠ none ∨ s.plantInstalled p = true ∧
          ((s.plantRow p).lastSent = none ∨ ∃ l, (s.plantRow p).lastSent = some l ∧ 0 < l)
        then some 0 else none)) ∧
  (∀ (s : State) (g : Fin 6),
    ((withdrawSets s).setRec g).state = (if (s.setRec g).state = .queued ∨ (s.setRec g).state = .rest
      then (if (s.setRec g).outOfService = true then .unavailable else .standby)
      else (s.setRec g).state) ∧
    ((stopAllSets s).setRec g).state = (if (s.setRec g).state = .online then .stopping
      else (s.setRec g).state)) ∧
  ∀ s : State, s.sst.mode = .run →
    (clearBus s).fdc.clearFlag = true ∧
    (∀ f, ((clearBus s).feederRec f).state = (if (s.feederRec f).state = .closed then .tripping
        else (s.feederRec f).state) ∧
      ((s.feederRec f).state = .closed → ((clearBus s).feederRec f).origin = some .blackstart)) ∧
    (let moving := ∃ f, s.feederInstalled f = true ∧
        ((s.feederRec f).state = .closed ∨ (s.feederRec f).state = .tripping ∨ (s.feederRec f).state = .closing)
     (moving → (clearBus s).fdc.settleOwed = true ∧ (clearBus s).handovers = s.handovers) ∧
     (¬moving → (clearBus s).fdc.settleOwed = false ∧
       (clearBus s).handovers = s.handovers ++ [.bssSettled]))

/-- The settlement and the rebuild (R142, R149); the choice of the first set or of the grant's holder (R150, R151);
what withdraws the grant (R152), the expiry of the first_close timer with it; the abort with its notices (R160, R162); the
loss of the first set (R153). Order and subjects of the notices, and the cause of a grant withdrawn at an abort, are log
entry 27; that the expiry of an idle timer changes nothing and one told early lets
the time pass to its due tick are log entries 2 and 3; that the merit list is without the entries that read 0 is log
entry 54; that an OPEN_SHED feeder which a storage fault makes not installed stays OPEN_SHED outside the rebuilt queue, log
entry 63; that a first set which never held the grant stays out of the tried set, log entry 60; that the cause is
FIRST_CLOSED where a selection finds a set ONLINE, log entry 61. -/
def Obligations.FirstSetAndGrant : Prop :=
  (∀ s : State, (s.bss.program ≠ .clearing → clearSettled s = s) ∧
    (s.bss.program = .clearing → clearSettled s = enterFirst .settled (rebuildQueue s))) ∧
  (∀ s : State, let t := rebuildQueue s
    let waits : Fin 16 → Prop := fun f => s.feederInstalled f = true ∧
      (s.feederRec f).outOfService = false ∧
      ((s.feederRec f).state = .openShed ∨ (s.feederRec f).state = .openExt)
    t.fdc.clearFlag = false ∧ (∀ f, f ∈ t.fdc.queue ↔ waits f) ∧
    t.fdc.queue.Pairwise (fun a b => s.feederRank a < s.feederRank b ∨
      s.feederRank a = s.feederRank b ∧ a < b) ∧
    ∀ f, (waits f → (t.feederRec f).state = .openShed) ∧
      (¬waits f → (t.feederRec f).state = (s.feederRec f).state) ∧
      (t.feederRec f).preShed = (s.feederRec f).preShed) ∧
  (∀ (cause : Cause) (s : State), enterFirst cause s = selectFirst (notifyProgram cause)
    { s with bss := ⟨.first, none, s.bss.restarts, s.bss.tried, none, none, none, none, none, none, none⟩ }) ∧
  (∀ (cause : Cause) (s : State), notifyProgram cause s = notify .blackstart
    (match s.bss.firstSet, s.bss.holder with
      | some g, _ => g.val + 1 | none, some g => g.val + 1 | none, none => 0)
    [sField s.bss.program.code, BitVec.ofNat 32 s.bss.restarts, sField cause.code] s) ∧
  (∀ (note : State → State) (s : State),
    let order := s.meritList ++ (List.finRange 6).filter fun g => decide (g ∉ s.meritList)
    let candidate : SetState → Fin 6 → Prop := fun st g => s.setInstalled g = true ∧
      (s.setRec g).outOfService = false ∧ s.setCapable g = true ∧ s.bss.tried.get g = false ∧
      (s.setRec g).state = st
    let granted : Fin 6 → State := fun g => { s with
      bss.tried := s.bss.tried.put g true
      bss.holder := some g
      bss.firstCloseTimer := some (s.dueIn (s.sysNat Sys.firstCloseTime)) }
    (∀ g, (s.setRec g).state = .online → (∀ h < g, (s.setRec h).state ≠ .online) →
      selectFirst note s = enterEnergizing g (note s)) ∧
    ((∀ g, (s.setRec g).state ≠ .online) →
      (∀ pre g post, order = pre ++ g :: post → candidate .runUp g → (∀ h ∈ pre, ¬candidate .runUp h) →
        selectFirst note s = notify .blackstart (g.val + 1) [16, 4] (note (granted g))) ∧
      ((∀ g, ¬candidate .runUp g) →
        (∀ pre g post, order = pre ++ g :: post → candidate .standby g →
          (∀ h ∈ pre, ¬candidate .standby h) →
          selectFirst note s =
            startSet g .blackstart (notify .blackstart (g.val + 1) [16, 1] (note (granted g)))) ∧
        ((∀ g, ¬candidate .standby g) →
          selectFirst note s = enterFailed .noCandidate (note s))))) ∧
  (∀ (s : State) (g : Fin 6), enterEnergizing g s =
    notify .blackstart (g.val + 1) [3, BitVec.ofNat 32 s.bss.restarts, 2]
      { s with bss := ⟨.energizing, none, s.bss.restarts, s.bss.tried, none, some g, none, none, none,
          some (s.dueIn (s.sysNat Sys.firstCloseTime)), none⟩ }) ∧
  (∀ (cause : Cause) (s : State), enterFailed cause s = notifyProgram cause
    { s with bss := ⟨.failed, none, s.bss.restarts, s.bss.tried, none, s.bss.firstSet, none, none, none,
        none, none⟩ }) ∧
  (∀ (s : State) (g : Fin 6) (old new : SetState),
    let withdrawn : State := selectFirst id (notify .blackstart (g.val + 1) [17, sField new.code]
      { s with bss.holder := none, bss.firstCloseTimer := none })
    (s.bss.program = .first → new = .online → setMoved g old new s = enterEnergizing g s) ∧
    (s.bss.program = .first → s.bss.holder = some g →
      new ∈ [.lockout, .unavailable, .standby, .stopping] → setMoved g old new s = withdrawn) ∧
    (s.bss.program = .first → new ≠ .online →
      s.bss.holder ≠ some g ∨ new ∉ [.lockout, .unavailable, .standby, .stopping] →
      setMoved g old new s = s) ∧
    (s.bss.program = .energizing → s.bss.firstSet = some g → old = .online →
      (∀ h, (s.setRec h).state = .online → (∀ k < h, (s.setRec k).state ≠ .online) →
        setMoved g old new s = { s with bss.energizeTimer := none, bss.firstSet := some h }) ∧
      ((∀ h, (s.setRec h).state ≠ .online) →
        setMoved g old new s = enterFirst .firstLost { s with bss.energizeTimer := none })) ∧
    (s.bss.program = .energizing → s.bss.firstSet ≠ some g ∨ old ≠ .online →
      setMoved g old new s = s) ∧
    (s.bss.program ≠ .first → s.bss.program ≠ .energizing → setMoved g old new s = s)) ∧
  (∀ s : State,
    let stopped : State := { s with
      bss := ⟨.idle, none, s.bss.restarts, s.bss.tried, none, s.bss.firstSet, none, none, none, none, none⟩ }
    let ended : Nat → State → State := fun subject x => clearForcedZero
      (notify .blackstart subject [0, BitVec.ofNat 32 s.bss.restarts, 13] x)
    let first : Nat := match s.bss.firstSet with | some g => g.val + 1 | none => 0
    (s.bss.program = .idle → abortProgram s = s) ∧
    (s.bss.program ≠ .idle → s.bss.holder = none → abortProgram s = ended first stopped) ∧
    ∀ g, s.bss.program ≠ .idle → s.bss.holder = some g →
      abortProgram s = ended (if s.bss.firstSet = none then g.val + 1 else first)
        (notify .blackstart (g.val + 1) [17, sField (s.setRec g).state.code] stopped)) ∧
  ∀ s : State, s.calm →
    (s.bss.firstCloseTimer = none → exec .firstCloseTimerExpiry s = .next s) ∧
    ∀ due g, s.bss.firstCloseTimer = some due → s.bss.program = .first → s.bss.holder = some g →
      let a := advanceTo due s
      exec .firstCloseTimerExpiry s = .next (cascade (selectFirst id
        (notify .blackstart (g.val + 1) [17, 9] { a with bss.holder := none, bss.firstCloseTimer := none })))

/-- ENERGIZING and RESTORING: the energize timer at each pass and its expiry (R153), the limit and a second collapse
(R157), the decision of phase WAIT (R154), the close and the start it leads to and their ends (R155, R156), the
settle timer, and the finish (R158). Order and subjects of the notices are log entry 27; that the expiry of an idle
timer changes nothing and one told early lets the time pass to its due tick are log entries 2 and 3; that forced-zero is
0 when cleared in the PLANT notice is log entry 55. -/
def Obligations.EnergizeRestoreAndCollapse : Prop :=
  (∀ s : State,
    let good := ∃ f, s.ben.record.kind = .period ∧ s.ben.record.f = some f ∧
      s.sys Sys.restoreFMin ≤ f
    (s.bss.program = .energizing → good → s.bss.energizeTimer = none →
      bssPass s = { s with bss.energizeTimer := some (s.dueIn (s.sysNat Sys.energizeTime)) }) ∧
    (s.bss.program = .energizing → good → s.bss.energizeTimer ≠ none → bssPass s = s) ∧
    (s.bss.program = .energizing → ¬good → bssPass s = { s with bss.energizeTimer := none }) ∧
    (s.bss.program = .restoring → s.bss.phase = some .wait → s.ben.record.kind = .period →
      (s.fdc.queue = [] → bssPass s = finish .queueEmpty s) ∧
      ∀ f rest, s.fdc.queue = f :: rest →
        let fits := good ∧ s.need f + s.sys Sys.restoreMargin ≤ s.ben.record.h.getD 0
        (fits → bssPass s = closeFeeder f .blackstart
          (notify .blackstart (f.val + 1) [18, sField (s.need f)]
            { s with bss.phase := some .close, bss.awaited := some (.feeder f) })) ∧
        (¬fits → (∀ g, s.startSelection = some g → bssPass s = startSet g .blackstart
            (notify .blackstart (g.val + 1) [19]
              { s with bss.phase := some .start, bss.awaited := some (.set g) })) ∧
          (s.startSelection = none → bssPass s = finish .queueRemaining s))) ∧
    (s.bss.program = .restoring → s.bss.phase ≠ some .wait ∨ s.ben.record.kind ≠ .period →
      bssPass s = s) ∧
    (s.bss.program ≠ .energizing → s.bss.program ≠ .restoring → bssPass s = s ∧ busDied s = s) ∧
    (s.bss.program = .energizing ∨ s.bss.program = .restoring → busDied s = collapse .collapse s)) ∧
  (∀ (cause : Cause) (s : State),
    let b : State := { s with bss := ⟨s.bss.program, none, s.bss.restarts + 1, s.bss.tried, s.bss.holder,
      none, none, none, none, none, none⟩ }
    (s.bss.restarts < 3 → collapse cause s = enterClearing cause b) ∧
    (3 ≤ s.bss.restarts → collapse cause s = enterFailed cause b)) ∧
  (∀ (cause : Cause) (s : State),
    let lifted := if s.ctx.forcedZero = true then
        notify .plant 0 [1, 0] { s with ctx.forcedZero := false, ben.aPrev := 0 }
      else { s with ben.aPrev := 0 }
    finish cause s = emit (.complete .bss 0 .done) (notifyProgram cause { lifted with
      bss := ⟨.idle, none, s.bss.restarts, s.bss.tried, s.bss.holder, s.bss.firstSet, none, none, none,
        none, none⟩ })) ∧
  (∀ (s : State) (f : Fin 16),
    let waits := s.bss.program = .restoring ∧ s.bss.phase = some .close ∧ s.bss.awaited = some (.feeder f)
    (¬waits → closeEnded f s = s) ∧
    (waits → closeEnded f s = { s with
      bss.awaited := none, bss.phase := some .settle
      bss.settleTimer := some (s.dueIn (s.sysNat Sys.settleTime)) })) ∧
  (∀ (s : State) (g : Fin 6),
    let waits := s.bss.program = .restoring ∧ s.bss.phase = some .start ∧ s.bss.awaited = some (.set g)
    (¬waits → ∀ ok, startEnded g ok s = s) ∧
    (waits → startEnded g true s = { s with bss.awaited := none, bss.phase := some .wait } ∧
      startEnded g false s = finish .startFailed { s with bss.awaited := none })) ∧
  ∀ s : State, s.calm →
    (s.bss.energizeTimer = none → exec .energizeTimerExpiry s = .next s) ∧
    (s.bss.limitTimer = none → exec .energizeLimitTimerExpiry s = .next s) ∧
    (s.bss.settleTimer = none → exec .settleTimerExpiry s = .next s) ∧
    ∀ due, let a := advanceTo due s
      (s.bss.energizeTimer = some due → s.bss.program = .energizing →
        exec .energizeTimerExpiry s = .next (notifyProgram .energized { a with
          bss := ⟨.restoring, some .wait, s.bss.restarts, s.bss.tried, s.bss.holder, s.bss.firstSet, none,
            none, none, none, none⟩ })) ∧
      (s.bss.limitTimer = some due → s.bss.program = .energizing →
        exec .energizeLimitTimerExpiry s = .next (cascade (collapse .energizeLimit a))) ∧
      (s.bss.settleTimer = some due → s.bss.phase = some .settle →
        exec .settleTimerExpiry s =
          .next { a with bss.settleTimer := none, bss.phase := some .wait })

/-! ### The sample link -/

/-- Each POWER frame that SRX takes out of its receive stage (R17) is checked against the latest bus stamp: aged 0 to 32
it is taken (R6, R8), aged 33 to 63, or while no stamp is known, it is discarded; no stamp is known after power-on and
RESTART; a bus record's stamp becomes the latest whatever stood before (R4). Either frame leaves the stage empty. That a
frame which comes to an empty stage is taken at once, without a stay in it, is the model's choice, log entry 5; one that
comes while another is held is discarded (R17). -/
def Obligations.PowerFramesByAge : Prop :=
  (∀ (s : State) (h : Fin 31) (stamp : Stamp) (v : Int), s.calm → h ≠ 0 → -8388608 ≤ v → v ≤ 8388607 →
    let burst := sampleBytes 3 h.val stamp v
    let left := { s with srx.stage := none }
    (∀ other, s.srx.stage = some other → other ≠ burst → exec (.powerFrame burst) s = .next s) ∧
    (s.srx.stage = none ∨ s.srx.stage = some burst →
      (s.srx.busStamp = none → exec (.powerFrame burst) s = .next left) ∧
      ∀ latest, s.srx.busStamp = some latest →
        let age := (latest.toNat + 64 - stamp.toNat) % 64
        (32 < age → exec (.powerFrame burst) s = .next left) ∧
        (age ≤ 32 →
          let t := { left with srx.heads := s.srx.heads.put h ⟨some v, stamp, 0, .fresh⟩ }
          exec (.powerFrame burst) s = .next
            (if s.headInstalled h = true ∧ (s.srx.heads.get h).judgement = .stale then
              notify .unit h.val [0, 0] t else t)))) ∧
  (∀ (s : State) (kind : BusKind) (stamp : Stamp) (v : Int),
    kind = .period ∧ 0 ≤ v ∧ v < 16777216 ∨ kind = .dead →
    let burst := sampleBytes kind.code 0 stamp v
    s.calm → s.srx.stage = none ∨ s.srx.stage = some burst → ∃ t,
      exec (.busRecord burst) s = .next t ∧ t.srx.busStamp = some stamp ∧ t.srx.stage = none) ∧
  (∀ (s : State) (a b : Bool), ∃ t, exec (.powerOn a b) s = .next t ∧ t.srx.busStamp = none) ∧
  ∀ (s : State) (tag : Byte), s.takes 0x07 tag [] → ∃ t,
    exec (.restart tag []) s = .next t ∧ t.srx.busStamp = none

/-- A bus record's effects in the order of R14: the end of silence (R11), the table and its judgements (R7), a UNIT notice
for each reported head whose judgement changes, in ascending number (R8), the silence timer (R10), the dead timer and
BUS_DEAD (R12, R13), UNIT_STALE (R9), and the pass start with its copy of the table; the two timers of SRX, with what the
fallback makes pending at its beginning (R51); the receive stage (R17). Notices past the 32nd are dropped (R188). The order
of the dead timer's two hand-overs is log entry 25, that of the notices and presentations of a bus record and of the
silence timer log entry 35, frames taken without a stay in the stage log entry 5, that
any frame occupies the stage log entry 36; that the expiry of an idle timer changes nothing and one told early lets the
time pass to its due tick are log entries 2 and 3. -/
def Obligations.BusRecordsAndSampleTimers : Prop :=
  (∀ (s : State) (stamp : Stamp) (v : Int) (kind : BusKind) (value : Nat),
    kind = .period ∧ 0 ≤ v ∧ v < 16777216 ∧ value = v.toNat ∨ kind = .dead ∧ value = 0 →
    let burst := sampleBytes kind.code 0 stamp v
    s.calm → s.srx.stage = none ∨ s.srx.stage = some burst →
    ∃ u, exec (.busRecord burst) s = .next (cascade u) ∧
      u.srx.heads.get 0 = ⟨some value, stamp, 0, .fresh⟩ ∧
      (∀ h, h ≠ 0 → u.srx.heads.get h =
        let e := s.srx.heads.get h
        let since := min 255 (e.framesSince + 1)
        ⟨e.value, e.stamp, since, if s.sysNat Sys.staleLimit < since then .stale else .fresh⟩) ∧
      u.srx.busStamp = some stamp ∧ u.srx.lastKind = kind ∧ u.srx.busSilent = false ∧
      u.srx.silenceTimer = some (s.dueIn (s.sysNat Sys.busSilenceLimit)) ∧
      u.srx.deadTimer = (if kind = .period then none
        else if s.srx.lastKind = .dead then s.srx.deadTimer
        else some (s.dueIn (s.sysNat Sys.deadTime))) ∧
      u.srx.busDead = (decide (kind = .dead) && s.srx.busDead) ∧ u.srx.stage = none ∧
      u.ben.starts = s.ben.starts ++ [⟨kind, value, stamp, u.srx.heads⟩] ∧
      u.ctx.silent = (if s.srx.busSilent = true then none else s.ctx.silent) ∧
      (∃ stale : Bool, (stale = true ↔ ∃ h, h ≠ 0 ∧ s.headInstalled h = true ∧
          (u.srx.heads.get h).judgement = .stale) ∧
        u.handovers = (if s.srx.busSilent = true then [.present [(12, false)]] else []) ++
          [.present [(0, u.srx.busDead)], .present [(13, stale)]]) ∧
      (let judged : State → Fin 31 → Judgement := fun x h => (x.srx.heads.get h).judgement
       let changed := (List.finRange 31).filter fun h =>
         (decide (h = 0) || s.headInstalled h) && decide (judged s h ≠ judged u h)
       let queued : List Notice :=
         (if s.srx.busSilent = true ∧ s.ctx.silent ≠ none then [⟨.plant, s.tick, 0, [2, 0]⟩] else []) ++
         changed.map fun h => ⟨.unit, s.tick, h.val,
           [if judged u h = .fresh then 0 else 1, BitVec.ofNat 32 (u.srx.heads.get h).framesSince]⟩
       u.hlc.notices = s.hlc.notices ++ queued.take (32 - s.hlc.notices.length) ∧
       u.hlc.lost = (s.hlc.lost || decide (32 - s.hlc.notices.length < queued.length))) ∧
      u = { s with
        srx := u.srx, ben.starts := u.ben.starts, ctx.silent := u.ctx.silent
        handovers := u.handovers, hlc.notices := u.hlc.notices, hlc.lost := u.hlc.lost }) ∧
  ∀ s : State, s.calm →
    (s.srx.silenceTimer = none → exec .busSilenceTimerExpiry s = .next s) ∧
    (s.srx.deadTimer = none → exec .deadTimerExpiry s = .next s) ∧
    (∀ burst other, s.srx.stage = some other → other ≠ burst → exec (.busRecord burst) s = .next s) ∧
    (∀ due, s.srx.silenceTimer = some due → let a := advanceTo due s
      ∃ u, exec .busSilenceTimerExpiry s = .next (cascade u) ∧
        u.handovers = [.present [(12, true)]] ∧
        u.srx = { s.srx with
          silenceTimer := none, busSilent := true
          heads := s.srx.heads.put 0 { s.srx.heads.get 0 with judgement := .stale } } ∧
        (let begins := s.sst.mode = .run ∧ s.ctx.silent = none
         let choice := fallbackOf (s.sys Sys.silentFallback)
         let queued : List Notice :=
           (if (s.srx.heads.get 0).judgement = .fresh then
             [⟨.unit, a.tick, 0, [1, BitVec.ofNat 32 (s.srx.heads.get 0).framesSince]⟩] else []) ++
           (if begins then [⟨.plant, a.tick, 0, [2, 1]⟩] else [])
         u.ctx.silent = (if begins then some ⟨choice, a.tick + 20⟩ else s.ctx.silent) ∧
         (∀ p, u.ctx.waiting.get p = if begins then
             match fallbackCeiling s choice p with
             | none => s.ctx.waiting.get p
             | some c => some (if s.ctx.forcedZero = true then 0 else c)
           else s.ctx.waiting.get p) ∧
         u.hlc.notices = s.hlc.notices ++ queued.take (32 - s.hlc.notices.length) ∧
         u.hlc.lost = (s.hlc.lost || decide (32 - s.hlc.notices.length < queued.length))) ∧
        (s.sst.mode ≠ .run → u.ctx = s.ctx) ∧
        u = { a with
          srx := u.srx, ctx.silent := u.ctx.silent, ctx.waiting := u.ctx.waiting
          handovers := u.handovers, hlc.notices := u.hlc.notices, hlc.lost := u.hlc.lost }) ∧
    (∀ due, s.srx.deadTimer = some due → exec .deadTimerExpiry s = .next (cascade { advanceTo due s with
      srx.deadTimer := none, srx.busDead := true
      handovers := [.bssBusDead, .present [(0, true)]] })) ∧
    ∀ burst, exec (.sampleFrameReceived burst) s =
      .next (if s.srx.stage = none then { s with srx.stage := some burst } else s)

/-! ### The balance pass -/

/-- BALANCE_PASS takes the oldest pass start. A PERIOD pass computes every quantity of R21 to R33, R36, R37 and R39
to R41 from the copy and presents the eight conditions (R38); a DEAD pass follows R20; the record is replaced whole
(R42). Frequency, rocof, allowance and ceilings keep the ranges of R42. That a pass with no start waiting does nothing is
log entry 3, that RSC is given its values before BSS log entry 25, and that the record is replaced before RSC takes them log
entry 48; that a ring which a storage fault leaves too long drops every entry in excess at once, log entry 59. -/
def Obligations.BalancePassOfEachKind : Prop :=
  (∀ s : State, s.calm → s.ben.starts = [] → exec .balancePass s = .next s) ∧
  (∀ (s : State) (ps : PassStart) (rest : List PassStart), s.calm → s.ben.starts = ps :: rest →
    let online : (Fin 6 → Int) → Int := fun v =>
      (((List.finRange 6).filter fun g => (s.setRec g).state = .online).map v).sum
    let output : Fin 6 → Int := fun g => (ps.heads.get ⟨g.val + 1, by omega⟩).value.getD 0
    let g := online output
    let rg := online s.setRated
    let fg := online fun i => Int.tdiv (s.setRated i * s.setFloorPct i) 100
    let h := online fun i => if (ps.heads.get ⟨i.val + 1, by omega⟩).judgement = .fresh then
      max 0 (s.setRated i - output i) else 0
    let serving := (List.finRange 8).filter fun p => s.plantInstalled p && (s.plantRow p).inService
    let produced : Fin 8 → Int := fun p =>
      if (ps.heads.get ⟨p.val + 7, by omega⟩).judgement = .fresh then
        max 0 ((ps.heads.get ⟨p.val + 7, by omega⟩).value.getD 0)
      else (s.plantRow p).lastSent.getD (s.plantCapacity p)
    let p := (serving.map produced).sum
    let cpv := (serving.map s.plantCapacity).sum
    let fl := (((List.finRange 16).filter s.feederInstalled).map fun i =>
      (ps.heads.get ⟨i.val + 15, by omega⟩).value.getD 0).sum
    let r := Int.tdiv (s.sys Sys.reservePct * p + 99) 100 + s.sys Sys.reserveFixed
    ∃ u : State, exec .balancePass s = .next (cascade u) ∧
      u.ben.starts = rest ∧ u.ben.passNumber = s.ben.passNumber + 1 ∧
      (let w := u.ben.record
       w.number = s.ben.passNumber + 1 ∧ w.stamp = some ps.stamp ∧ w.kind = ps.kind ∧
       w.g = some g ∧ w.p = some p ∧ w.fl = some fl ∧ w.rg = some rg ∧ w.fg = some fg ∧ w.h = some h ∧
       w.r = some r ∧ w.staleHeads = (List.finRange 31).filter fun i =>
         s.headInstalled i && decide ((ps.heads.get i).judgement = .stale)) ∧
      (0 ≤ p → s.sys Sys.reservePct * p ≤ 100 * (r - s.sys Sys.reserveFixed) ∧
        100 * (r - s.sys Sys.reserveFixed) < s.sys Sys.reservePct * p + 100) ∧
      (ps.kind = .dead →
        let w := u.ben.record
        w.f = none ∧ w.rocof = none ∧ w.settled = false ∧ w.clamped = false ∧ w.aFloor = none ∧
        w.aCap = none ∧ w.aDroop = none ∧ w.aRamp = none ∧ w.stableTime = some 0 ∧
        w.a = (if s.ctx.forcedZero = true then some 0 else none) ∧
        (∀ i, w.ceilings.get i =
          if s.ctx.forcedZero = true ∧ s.plantInstalled i = true then some 0 else none) ∧
        u.ben.ring = [] ∧ u.ben.stableMs = 0 ∧
        u.ben.aPrev = (if s.ctx.forcedZero = true then 0 else s.ben.aPrev) ∧
        u.ctx = (if s.ctx.forcedZero = true then (takeCeilings w.ceilings s).ctx else s.ctx) ∧
        u.handovers = [.present [(1, false), (2, false), (3, false), (4, false), (6, false), (9, false),
          (10, false), (11, false)], .bssPass]) ∧
      (ps.kind = .period →
        let w := u.ben.record
        let n := s.sysNat Sys.rocofWindow
        let t := ps.value
        ∃ (f rocof floor cap droop ramp a : Int), w.f = some f ∧ w.rocof = some rocof ∧
          w.aFloor = some floor ∧ w.aCap = some cap ∧ w.aDroop = some droop ∧ w.aRamp = some ramp ∧
          w.a = some a ∧
          w.clamped = (decide (t < 142858) || decide (250000 < t)) ∧
          (t < 142858 → f = 70000) ∧ (250000 < t → f = 40000) ∧
          (142858 ≤ t → t ≤ 250000 → (2 * f - 1) * t ≤ 20000000000 ∧ 20000000000 < (2 * f + 1) * t) ∧
          (let full := s.ben.ring ++ [⟨f, (t : Int)⟩]
           u.ben.ring = full.drop (full.length - (n + 1))) ∧
          w.settled = decide (n + 1 ≤ u.ben.ring.length) ∧
          (w.settled = false → rocof = 0) ∧
          (∀ oldest middle, w.settled = true → u.ben.ring = oldest :: middle →
            let total := (middle.map RingEntry.t).sum
            rocof = if total = 0 then 0
              else max (-20000) (min 20000 (Int.tdiv ((f - oldest.f) * 10000000) total))) ∧
          floor = max 0 (min cpv (p + g - fg - s.sys Sys.floorMargin)) ∧
          cap = Int.tdiv (cpv * s.ctx.capPct) 100 ∧
          (let excess := f - s.sys Sys.fNom - s.sys Sys.droopDb
           droop = if excess ≤ 0 then cpv
             else max 0 (Int.tdiv (p * (s.sys Sys.droopSpan - excess)) (s.sys Sys.droopSpan))) ∧
          ramp = s.ben.aPrev + s.sys Sys.rampUpStep ∧
          a = (if s.ctx.forcedZero = true then 0 else min floor (min cap (min droop ramp))) ∧
          u.ben.aPrev = a ∧ w.ceilings = s.distribute ps.heads a ∧
          u.ben.stableMs = (if f < s.sys Sys.restoreFMin then 0 else s.ben.stableMs) ∧
          w.stableTime = some (u.ben.stableMs : Int) ∧ u.ctx = (takeCeilings w.ceilings s).ctx ∧
          ∃ surplus ready : Bool,
            (surplus = true ↔ ∃ c, s.stopSelection = some c ∧ 2 ≤ s.onlineCount ∧
              r + s.sys Sys.stopMargin ≤ h - s.setRated c) ∧
            (ready = true ↔ ∃ q qs, s.fdc.queue = q :: qs ∧
              s.sysNat Sys.restoreDelay ≤ u.ben.stableMs ∧
              (s.feederRec q).preShed.getD (s.feederNominal q) + s.sys Sys.restoreMargin ≤ h) ∧
            u.handovers = [.present [(1, decide (f < s.sys Sys.ufDeep)),
              (2, w.settled && decide (rocof < -s.sys Sys.rocofThreshold)),
              (3, decide (f < s.sys Sys.ufLow)),
              (4, decide (Int.tdiv (rg * s.sys Sys.overloadPct) 100 < g)), (6, decide (h < r)),
              (9, decide (s.sys Sys.ofThreshold < f)), (10, surplus), (11, ready)], .bssPass]) ∧
      u = { s with
        ben := u.ben, ctx.waiting := u.ctx.waiting, ctx.refreshCount := u.ctx.refreshCount
        handovers := u.handovers }) ∧
  (∀ (s : State) (heads : Tab 31 HeadEntry) (a : Int),
    let firm := s.servingClass false
    let flex := s.servingClass true
    let fo := (firm.map (s.plantOutput heads)).sum
    (∀ b, s.servingClass b = (List.finRange 8).filter fun p =>
      s.plantInstalled p && (s.plantRow p).inService && s.plantFlex p == b) ∧
    ∀ p, (s.distribute heads a).get p =
      if s.plantInstalled p = false then none
      else if s.ctx.forcedZero = true ∨ (s.plantRow p).inService = false then some 0
      else if fo ≤ a then
        some (if s.plantFlex p = true then shareOf (s.divide (a - fo) flex) p else s.plantCapacity p)
      else some (if s.plantFlex p = true then 0 else shareOf (s.divide a firm) p)) ∧
  (∀ (s : State) (pool : Int) (plants : List (Fin 8)),
    let w := (plants.map s.plantCapacity).sum
    let share : Fin 8 → Int := fun p => min (s.plantCapacity p) (Int.tdiv (pool * s.plantCapacity p) w)
    s.divide pool plants = giveLeftover (pool - (plants.map share).sum)
      (plants.map fun p => (p, share p, s.plantCapacity p))) ∧
  (∀ (left : Int) (p : Fin 8) (share capacity : Int) (rest : List (Fin 8 × Int × Int)),
    giveLeftover left [] = [] ∧ giveLeftover left ((p, share, capacity) :: rest) =
      if 0 < left ∧ share < capacity then (p, share + 1) :: giveLeftover (left - 1) rest
      else (p, share) :: giveLeftover left rest) ∧
  ∀ (s : State) (ps : PassStart), ps.kind = .period → 0 ≤ s.ben.aPrev → 0 ≤ s.ctx.capPct →
    let w := (takePass ps s).ben.record
    (∃ f, w.f = some f ∧ 40000 ≤ f ∧ f ≤ 70000) ∧
    (∃ rocof, w.rocof = some rocof ∧ -20000 ≤ rocof ∧ rocof ≤ 20000) ∧
    (∃ a, w.a = some a ∧ 0 ≤ a ∧ a ≤ s.sumCapacity ∧ (takePass ps s).ben.aPrev = a) ∧
    ∀ p c, w.ceilings.get p = some c → 0 ≤ c ∧ c ≤ s.plantCapacity p
end

