-- ==== Sys2Proof/Laws/State.lean ====
section
/-!
SUPPORT. One lemma for each field and each named update: what the update leaves, by `rfl`.
-/
namespace Sys2Proof.Machine

@[simp] theorem emit_resetLow (m : Handover) (s : State) : (emit m s).resetLow = s.resetLow := rfl
@[simp] theorem emit_tick (m : Handover) (s : State) : (emit m s).tick = s.tick := rfl
@[simp] theorem emit_lineRate (m : Handover) (s : State) : (emit m s).lineRate = s.lineRate := rfl
@[simp] theorem emit_srx (m : Handover) (s : State) : (emit m s).srx = s.srx := rfl
@[simp] theorem emit_ben (m : Handover) (s : State) : (emit m s).ben = s.ben := rfl
@[simp] theorem emit_ctx (m : Handover) (s : State) : (emit m s).ctx = s.ctx := rfl
@[simp] theorem emit_rsc (m : Handover) (s : State) : (emit m s).rsc = s.rsc := rfl
@[simp] theorem emit_chains (m : Handover) (s : State) : (emit m s).chains = s.chains := rfl
@[simp] theorem emit_gsd (m : Handover) (s : State) : (emit m s).gsd = s.gsd := rfl
@[simp] theorem emit_fdc (m : Handover) (s : State) : (emit m s).fdc = s.fdc := rfl
@[simp] theorem emit_bss (m : Handover) (s : State) : (emit m s).bss = s.bss := rfl
@[simp] theorem emit_sst (m : Handover) (s : State) : (emit m s).sst = s.sst := rfl
@[simp] theorem emit_hlc (m : Handover) (s : State) : (emit m s).hlc = s.hlc := rfl
@[simp] theorem emit_pending (m : Handover) (s : State) : (emit m s).pending = s.pending := rfl

@[simp] theorem modSet_resetLow (g : Fin 6) (f : SetRec → SetRec) (s : State) : (modSet g f s).resetLow = s.resetLow := rfl
@[simp] theorem modSet_tick (g : Fin 6) (f : SetRec → SetRec) (s : State) : (modSet g f s).tick = s.tick := rfl
@[simp] theorem modSet_lineRate (g : Fin 6) (f : SetRec → SetRec) (s : State) : (modSet g f s).lineRate = s.lineRate := rfl
@[simp] theorem modSet_srx (g : Fin 6) (f : SetRec → SetRec) (s : State) : (modSet g f s).srx = s.srx := rfl
@[simp] theorem modSet_ben (g : Fin 6) (f : SetRec → SetRec) (s : State) : (modSet g f s).ben = s.ben := rfl
@[simp] theorem modSet_ctx (g : Fin 6) (f : SetRec → SetRec) (s : State) : (modSet g f s).ctx = s.ctx := rfl
@[simp] theorem modSet_rsc (g : Fin 6) (f : SetRec → SetRec) (s : State) : (modSet g f s).rsc = s.rsc := rfl
@[simp] theorem modSet_chains (g : Fin 6) (f : SetRec → SetRec) (s : State) : (modSet g f s).chains = s.chains := rfl
@[simp] theorem modSet_fdc (g : Fin 6) (f : SetRec → SetRec) (s : State) : (modSet g f s).fdc = s.fdc := rfl
@[simp] theorem modSet_bss (g : Fin 6) (f : SetRec → SetRec) (s : State) : (modSet g f s).bss = s.bss := rfl
@[simp] theorem modSet_sst (g : Fin 6) (f : SetRec → SetRec) (s : State) : (modSet g f s).sst = s.sst := rfl
@[simp] theorem modSet_hlc (g : Fin 6) (f : SetRec → SetRec) (s : State) : (modSet g f s).hlc = s.hlc := rfl
@[simp] theorem modSet_handovers (g : Fin 6) (f : SetRec → SetRec) (s : State) : (modSet g f s).handovers = s.handovers := rfl
@[simp] theorem modSet_pending (g : Fin 6) (f : SetRec → SetRec) (s : State) : (modSet g f s).pending = s.pending := rfl

@[simp] theorem modFeeder_resetLow (i : Fin 16) (f : FeederRec → FeederRec) (s : State) : (modFeeder i f s).resetLow = s.resetLow := rfl
@[simp] theorem modFeeder_tick (i : Fin 16) (f : FeederRec → FeederRec) (s : State) : (modFeeder i f s).tick = s.tick := rfl
@[simp] theorem modFeeder_lineRate (i : Fin 16) (f : FeederRec → FeederRec) (s : State) : (modFeeder i f s).lineRate = s.lineRate := rfl
@[simp] theorem modFeeder_srx (i : Fin 16) (f : FeederRec → FeederRec) (s : State) : (modFeeder i f s).srx = s.srx := rfl
@[simp] theorem modFeeder_ben (i : Fin 16) (f : FeederRec → FeederRec) (s : State) : (modFeeder i f s).ben = s.ben := rfl
@[simp] theorem modFeeder_ctx (i : Fin 16) (f : FeederRec → FeederRec) (s : State) : (modFeeder i f s).ctx = s.ctx := rfl
@[simp] theorem modFeeder_rsc (i : Fin 16) (f : FeederRec → FeederRec) (s : State) : (modFeeder i f s).rsc = s.rsc := rfl
@[simp] theorem modFeeder_chains (i : Fin 16) (f : FeederRec → FeederRec) (s : State) : (modFeeder i f s).chains = s.chains := rfl
@[simp] theorem modFeeder_gsd (i : Fin 16) (f : FeederRec → FeederRec) (s : State) : (modFeeder i f s).gsd = s.gsd := rfl
@[simp] theorem modFeeder_bss (i : Fin 16) (f : FeederRec → FeederRec) (s : State) : (modFeeder i f s).bss = s.bss := rfl
@[simp] theorem modFeeder_sst (i : Fin 16) (f : FeederRec → FeederRec) (s : State) : (modFeeder i f s).sst = s.sst := rfl
@[simp] theorem modFeeder_hlc (i : Fin 16) (f : FeederRec → FeederRec) (s : State) : (modFeeder i f s).hlc = s.hlc := rfl
@[simp] theorem modFeeder_handovers (i : Fin 16) (f : FeederRec → FeederRec) (s : State) : (modFeeder i f s).handovers = s.handovers := rfl
@[simp] theorem modFeeder_pending (i : Fin 16) (f : FeederRec → FeederRec) (s : State) : (modFeeder i f s).pending = s.pending := rfl

@[simp] theorem modPlant_resetLow (p : Fin 8) (f : Plant → Plant) (s : State) : (modPlant p f s).resetLow = s.resetLow := rfl
@[simp] theorem modPlant_tick (p : Fin 8) (f : Plant → Plant) (s : State) : (modPlant p f s).tick = s.tick := rfl
@[simp] theorem modPlant_lineRate (p : Fin 8) (f : Plant → Plant) (s : State) : (modPlant p f s).lineRate = s.lineRate := rfl
@[simp] theorem modPlant_srx (p : Fin 8) (f : Plant → Plant) (s : State) : (modPlant p f s).srx = s.srx := rfl
@[simp] theorem modPlant_ben (p : Fin 8) (f : Plant → Plant) (s : State) : (modPlant p f s).ben = s.ben := rfl
@[simp] theorem modPlant_rsc (p : Fin 8) (f : Plant → Plant) (s : State) : (modPlant p f s).rsc = s.rsc := rfl
@[simp] theorem modPlant_chains (p : Fin 8) (f : Plant → Plant) (s : State) : (modPlant p f s).chains = s.chains := rfl
@[simp] theorem modPlant_gsd (p : Fin 8) (f : Plant → Plant) (s : State) : (modPlant p f s).gsd = s.gsd := rfl
@[simp] theorem modPlant_fdc (p : Fin 8) (f : Plant → Plant) (s : State) : (modPlant p f s).fdc = s.fdc := rfl
@[simp] theorem modPlant_bss (p : Fin 8) (f : Plant → Plant) (s : State) : (modPlant p f s).bss = s.bss := rfl
@[simp] theorem modPlant_sst (p : Fin 8) (f : Plant → Plant) (s : State) : (modPlant p f s).sst = s.sst := rfl
@[simp] theorem modPlant_hlc (p : Fin 8) (f : Plant → Plant) (s : State) : (modPlant p f s).hlc = s.hlc := rfl
@[simp] theorem modPlant_handovers (p : Fin 8) (f : Plant → Plant) (s : State) : (modPlant p f s).handovers = s.handovers := rfl
@[simp] theorem modPlant_pending (p : Fin 8) (f : Plant → Plant) (s : State) : (modPlant p f s).pending = s.pending := rfl

@[simp] theorem modCond_resetLow (c : Fin 24) (f : CondRow → CondRow) (s : State) : (modCond c f s).resetLow = s.resetLow := rfl
@[simp] theorem modCond_tick (c : Fin 24) (f : CondRow → CondRow) (s : State) : (modCond c f s).tick = s.tick := rfl
@[simp] theorem modCond_lineRate (c : Fin 24) (f : CondRow → CondRow) (s : State) : (modCond c f s).lineRate = s.lineRate := rfl
@[simp] theorem modCond_srx (c : Fin 24) (f : CondRow → CondRow) (s : State) : (modCond c f s).srx = s.srx := rfl
@[simp] theorem modCond_ben (c : Fin 24) (f : CondRow → CondRow) (s : State) : (modCond c f s).ben = s.ben := rfl
@[simp] theorem modCond_ctx (c : Fin 24) (f : CondRow → CondRow) (s : State) : (modCond c f s).ctx = s.ctx := rfl
@[simp] theorem modCond_chains (c : Fin 24) (f : CondRow → CondRow) (s : State) : (modCond c f s).chains = s.chains := rfl
@[simp] theorem modCond_gsd (c : Fin 24) (f : CondRow → CondRow) (s : State) : (modCond c f s).gsd = s.gsd := rfl
@[simp] theorem modCond_fdc (c : Fin 24) (f : CondRow → CondRow) (s : State) : (modCond c f s).fdc = s.fdc := rfl
@[simp] theorem modCond_bss (c : Fin 24) (f : CondRow → CondRow) (s : State) : (modCond c f s).bss = s.bss := rfl
@[simp] theorem modCond_sst (c : Fin 24) (f : CondRow → CondRow) (s : State) : (modCond c f s).sst = s.sst := rfl
@[simp] theorem modCond_hlc (c : Fin 24) (f : CondRow → CondRow) (s : State) : (modCond c f s).hlc = s.hlc := rfl
@[simp] theorem modCond_handovers (c : Fin 24) (f : CondRow → CondRow) (s : State) : (modCond c f s).handovers = s.handovers := rfl
@[simp] theorem modCond_pending (c : Fin 24) (f : CondRow → CondRow) (s : State) : (modCond c f s).pending = s.pending := rfl

@[simp] theorem modChain_resetLow (n : Fin 6) (f : Chain → Chain) (s : State) : (modChain n f s).resetLow = s.resetLow := rfl
@[simp] theorem modChain_tick (n : Fin 6) (f : Chain → Chain) (s : State) : (modChain n f s).tick = s.tick := rfl
@[simp] theorem modChain_lineRate (n : Fin 6) (f : Chain → Chain) (s : State) : (modChain n f s).lineRate = s.lineRate := rfl
@[simp] theorem modChain_srx (n : Fin 6) (f : Chain → Chain) (s : State) : (modChain n f s).srx = s.srx := rfl
@[simp] theorem modChain_ben (n : Fin 6) (f : Chain → Chain) (s : State) : (modChain n f s).ben = s.ben := rfl
@[simp] theorem modChain_ctx (n : Fin 6) (f : Chain → Chain) (s : State) : (modChain n f s).ctx = s.ctx := rfl
@[simp] theorem modChain_rsc (n : Fin 6) (f : Chain → Chain) (s : State) : (modChain n f s).rsc = s.rsc := rfl
@[simp] theorem modChain_gsd (n : Fin 6) (f : Chain → Chain) (s : State) : (modChain n f s).gsd = s.gsd := rfl
@[simp] theorem modChain_fdc (n : Fin 6) (f : Chain → Chain) (s : State) : (modChain n f s).fdc = s.fdc := rfl
@[simp] theorem modChain_bss (n : Fin 6) (f : Chain → Chain) (s : State) : (modChain n f s).bss = s.bss := rfl
@[simp] theorem modChain_sst (n : Fin 6) (f : Chain → Chain) (s : State) : (modChain n f s).sst = s.sst := rfl
@[simp] theorem modChain_hlc (n : Fin 6) (f : Chain → Chain) (s : State) : (modChain n f s).hlc = s.hlc := rfl
@[simp] theorem modChain_handovers (n : Fin 6) (f : Chain → Chain) (s : State) : (modChain n f s).handovers = s.handovers := rfl
@[simp] theorem modChain_pending (n : Fin 6) (f : Chain → Chain) (s : State) : (modChain n f s).pending = s.pending := rfl

@[simp] theorem emit_handovers (m : Handover) (s : State) :
    (emit m s).handovers = s.handovers ++ [m] := rfl

@[simp] theorem modSet_setRec_self (g : Fin 6) (f : SetRec → SetRec) (s : State) :
    (modSet g f s).setRec g = f (s.setRec g) := by simp [modSet, State.setRec]

theorem modSet_setRec (g h : Fin 6) (f : SetRec → SetRec) (s : State) :
    (modSet g f s).setRec h = if g = h then f (s.setRec g) else s.setRec h := by
  simp only [modSet, State.setRec, Tab.modify, Tab.get_put]

@[simp] theorem modFeeder_feederRec_self (i : Fin 16) (f : FeederRec → FeederRec) (s : State) :
    (modFeeder i f s).feederRec i = f (s.feederRec i) := by simp [modFeeder, State.feederRec]

theorem modFeeder_feederRec (i j : Fin 16) (f : FeederRec → FeederRec) (s : State) :
    (modFeeder i f s).feederRec j = if i = j then f (s.feederRec i) else s.feederRec j := by
  simp only [modFeeder, State.feederRec, Tab.modify, Tab.get_put]

@[simp] theorem modPlant_plantRow_self (p : Fin 8) (f : Plant → Plant) (s : State) :
    (modPlant p f s).plantRow p = f (s.plantRow p) := by simp [modPlant, State.plantRow]

theorem modPlant_plantRow (p q : Fin 8) (f : Plant → Plant) (s : State) :
    (modPlant p f s).plantRow q = if p = q then f (s.plantRow p) else s.plantRow q := by
  simp only [modPlant, State.plantRow, Tab.modify, Tab.get_put]

@[simp] theorem modCond_condRow_self (c : Fin 24) (f : CondRow → CondRow) (s : State) :
    (modCond c f s).condRow c = f (s.condRow c) := by simp [modCond, State.condRow]

theorem modCond_condRow (c d : Fin 24) (f : CondRow → CondRow) (s : State) :
    (modCond c f s).condRow d = if c = d then f (s.condRow c) else s.condRow d := by
  simp only [modCond, State.condRow, Tab.modify, Tab.get_put]

@[simp] theorem modChain_chain_self (n : Fin 6) (f : Chain → Chain) (s : State) :
    (modChain n f s).chain n = f (s.chain n) := by simp [modChain, State.chain]

theorem modChain_chain (n m : Fin 6) (f : Chain → Chain) (s : State) :
    (modChain n f s).chain m = if n = m then f (s.chain n) else s.chain m := by
  simp only [modChain, State.chain, Tab.modify, Tab.get_put]

@[simp] theorem notify_resetLow (k : NoticeKind) (n : Nat) (vs : List Word) (s : State) :
    (notify k n vs s).resetLow = s.resetLow := by unfold notify; split <;> rfl
@[simp] theorem notify_tick (k : NoticeKind) (n : Nat) (vs : List Word) (s : State) :
    (notify k n vs s).tick = s.tick := by unfold notify; split <;> rfl
@[simp] theorem notify_lineRate (k : NoticeKind) (n : Nat) (vs : List Word) (s : State) :
    (notify k n vs s).lineRate = s.lineRate := by unfold notify; split <;> rfl
@[simp] theorem notify_srx (k : NoticeKind) (n : Nat) (vs : List Word) (s : State) :
    (notify k n vs s).srx = s.srx := by unfold notify; split <;> rfl
@[simp] theorem notify_ben (k : NoticeKind) (n : Nat) (vs : List Word) (s : State) :
    (notify k n vs s).ben = s.ben := by unfold notify; split <;> rfl
@[simp] theorem notify_ctx (k : NoticeKind) (n : Nat) (vs : List Word) (s : State) :
    (notify k n vs s).ctx = s.ctx := by unfold notify; split <;> rfl
@[simp] theorem notify_rsc (k : NoticeKind) (n : Nat) (vs : List Word) (s : State) :
    (notify k n vs s).rsc = s.rsc := by unfold notify; split <;> rfl
@[simp] theorem notify_chains (k : NoticeKind) (n : Nat) (vs : List Word) (s : State) :
    (notify k n vs s).chains = s.chains := by unfold notify; split <;> rfl
@[simp] theorem notify_gsd (k : NoticeKind) (n : Nat) (vs : List Word) (s : State) :
    (notify k n vs s).gsd = s.gsd := by unfold notify; split <;> rfl
@[simp] theorem notify_fdc (k : NoticeKind) (n : Nat) (vs : List Word) (s : State) :
    (notify k n vs s).fdc = s.fdc := by unfold notify; split <;> rfl
@[simp] theorem notify_bss (k : NoticeKind) (n : Nat) (vs : List Word) (s : State) :
    (notify k n vs s).bss = s.bss := by unfold notify; split <;> rfl
@[simp] theorem notify_sst (k : NoticeKind) (n : Nat) (vs : List Word) (s : State) :
    (notify k n vs s).sst = s.sst := by unfold notify; split <;> rfl
@[simp] theorem notify_handovers (k : NoticeKind) (n : Nat) (vs : List Word) (s : State) :
    (notify k n vs s).handovers = s.handovers := by unfold notify; split <;> rfl
@[simp] theorem notify_pending (k : NoticeKind) (n : Nat) (vs : List Word) (s : State) :
    (notify k n vs s).pending = s.pending := by unfold notify; split <;> rfl
@[simp] theorem notify_hlc_partialFrame (k : NoticeKind) (n : Nat) (vs : List Word) (s : State) :
    (notify k n vs s).hlc.partialFrame = s.hlc.partialFrame := by unfold notify; split <;> rfl
@[simp] theorem notify_hlc_slots (k : NoticeKind) (n : Nat) (vs : List Word) (s : State) :
    (notify k n vs s).hlc.slots = s.hlc.slots := by unfold notify; split <;> rfl
@[simp] theorem notify_hlc_reply (k : NoticeKind) (n : Nat) (vs : List Word) (s : State) :
    (notify k n vs s).hlc.reply = s.hlc.reply := by unfold notify; split <;> rfl
@[simp] theorem notify_hlc_sequence (k : NoticeKind) (n : Nat) (vs : List Word) (s : State) :
    (notify k n vs s).hlc.sequence = s.hlc.sequence := by unfold notify; split <;> rfl
@[simp] theorem notify_hlc_line (k : NoticeKind) (n : Nat) (vs : List Word) (s : State) :
    (notify k n vs s).hlc.line = s.hlc.line := by unfold notify; split <;> rfl

@[simp] theorem SetRec.ran_state (d : Nat) (r : SetRec) : (r.ran d).state = r.state := rfl
@[simp] theorem SetRec.ran_attempts (d : Nat) (r : SetRec) : (r.ran d).attempts = r.attempts := rfl
@[simp] theorem SetRec.ran_timer (d : Nat) (r : SetRec) : (r.ran d).timer = r.timer := rfl
@[simp] theorem SetRec.ran_retry (d : Nat) (r : SetRec) : (r.ran d).retry = r.retry := rfl
@[simp] theorem SetRec.ran_onlineSince (d : Nat) (r : SetRec) : (r.ran d).onlineSince = r.onlineSince := rfl
@[simp] theorem SetRec.ran_minRunMet (d : Nat) (r : SetRec) : (r.ran d).minRunMet = r.minRunMet := rfl
@[simp] theorem SetRec.ran_minRunTimer (d : Nat) (r : SetRec) : (r.ran d).minRunTimer = r.minRunTimer := rfl
@[simp] theorem SetRec.ran_origin (d : Nat) (r : SetRec) : (r.ran d).origin = r.origin := rfl
@[simp] theorem SetRec.ran_stopOwner (d : Nat) (r : SetRec) : (r.ran d).stopOwner = r.stopOwner := rfl
@[simp] theorem SetRec.ran_outOfService (d : Nat) (r : SetRec) : (r.ran d).outOfService = r.outOfService := rfl
@[simp] theorem SetRec.ran_running (d : Nat) (r : SetRec) : (r.ran d).running = r.running := rfl
@[simp] theorem SetRec.ran_breaker (d : Nat) (r : SetRec) : (r.ran d).breaker = r.breaker := rfl
@[simp] theorem SetRec.ran_ready (d : Nat) (r : SetRec) : (r.ran d).ready = r.ready := rfl
@[simp] theorem SetRec.ran_onlineMs (d : Nat) (r : SetRec) : (r.ran d).onlineMs = r.onlineMs := rfl

@[simp] theorem SetRec.stood_state (d : Nat) (r : SetRec) : (r.stood d).state = r.state := rfl
@[simp] theorem SetRec.stood_attempts (d : Nat) (r : SetRec) : (r.stood d).attempts = r.attempts := rfl
@[simp] theorem SetRec.stood_timer (d : Nat) (r : SetRec) : (r.stood d).timer = r.timer := rfl
@[simp] theorem SetRec.stood_retry (d : Nat) (r : SetRec) : (r.stood d).retry = r.retry := rfl
@[simp] theorem SetRec.stood_onlineSince (d : Nat) (r : SetRec) : (r.stood d).onlineSince = r.onlineSince := rfl
@[simp] theorem SetRec.stood_minRunMet (d : Nat) (r : SetRec) : (r.stood d).minRunMet = r.minRunMet := rfl
@[simp] theorem SetRec.stood_minRunTimer (d : Nat) (r : SetRec) : (r.stood d).minRunTimer = r.minRunTimer := rfl
@[simp] theorem SetRec.stood_origin (d : Nat) (r : SetRec) : (r.stood d).origin = r.origin := rfl
@[simp] theorem SetRec.stood_stopOwner (d : Nat) (r : SetRec) : (r.stood d).stopOwner = r.stopOwner := rfl
@[simp] theorem SetRec.stood_runSeconds (d : Nat) (r : SetRec) : (r.stood d).runSeconds = r.runSeconds := rfl
@[simp] theorem SetRec.stood_accumulator (d : Nat) (r : SetRec) : (r.stood d).accumulator = r.accumulator := rfl
@[simp] theorem SetRec.stood_outOfService (d : Nat) (r : SetRec) : (r.stood d).outOfService = r.outOfService := rfl
@[simp] theorem SetRec.stood_revision (d : Nat) (r : SetRec) : (r.stood d).revision = r.revision := rfl
@[simp] theorem SetRec.stood_running (d : Nat) (r : SetRec) : (r.stood d).running = r.running := rfl
@[simp] theorem SetRec.stood_breaker (d : Nat) (r : SetRec) : (r.stood d).breaker = r.breaker := rfl
@[simp] theorem SetRec.stood_ready (d : Nat) (r : SetRec) : (r.stood d).ready = r.ready := rfl

/-- Outside ONLINE nothing is counted (log entry 39). -/
@[simp] theorem SetRec.stood_of_not_online (d : Nat) (r : SetRec) (h : r.state ≠ .online) : r.stood d = r := by
  simp [SetRec.stood, h]

/-- A set counts the same time ONLINE whether it passes at once or in pieces (log entry 39). -/
theorem SetRec.stood_stood (a b : Nat) (r : SetRec) : (r.stood a).stood b = r.stood (a + b) := by
  by_cases h : r.state = .online
  · have m : min Config.minRunLimitMs (min Config.minRunLimitMs (r.onlineMs + a) + b) =
        min Config.minRunLimitMs (r.onlineMs + (a + b)) := by omega
    simp only [SetRec.stood, h, if_true, m]
  · simp [SetRec.stood, h]

/-- A set ONLINE for a length that min_run can have has that length counted (R96, R98). -/
theorem SetRec.le_stood_onlineMs (ms d : Nat) (r : SetRec) (h : r.state = .online)
    (passed : ms ≤ r.onlineMs + d) (limit : ms ≤ Config.minRunLimitMs) : ms ≤ (r.stood d).onlineMs := by
  simp only [SetRec.stood, h, if_true]; omega

/-- What is left in the accumulator of a set is less than a second (R112). -/
theorem SetRec.ran_accumulator_lt (d : Nat) (r : SetRec) : (r.ran d).accumulator < 1000 :=
  Nat.mod_lt _ (by decide)

/-- A set counts the same seconds whether time passes at once or in pieces (R112). -/
theorem SetRec.ran_ran (a b : Nat) (r : SetRec) : (r.ran a).ran b = r.ran (a + b) := by
  have h : (r.accumulator + a) / 1000 + ((r.accumulator + a) % 1000 + b) / 1000 =
      (r.accumulator + (a + b)) / 1000 := by omega
  have m : ((r.accumulator + a) % 1000 + b) % 1000 = (r.accumulator + (a + b)) % 1000 := by omega
  simp only [SetRec.ran, m, ← h, BitVec.ofNat_add, BitVec.add_assoc]

/-- A notice joins while fewer than 32 stand; else it is dropped and the lost flag is set (R188). -/
theorem notify_notices (k : NoticeKind) (n : Nat) (vs : List Word) (s : State) :
    (notify k n vs s).hlc.notices =
      if s.hlc.notices.length < Config.noticeCapacity then
        s.hlc.notices ++ [⟨k, s.tick, n, vs⟩] else s.hlc.notices := by
  unfold notify; split <;> rfl

/-- The FIFO never holds more than 32 notices (R188). -/
theorem notify_length (k : NoticeKind) (n : Nat) (vs : List Word) (s : State)
    (h : s.hlc.notices.length ≤ Config.noticeCapacity) :
    (notify k n vs s).hlc.notices.length ≤ Config.noticeCapacity := by
  rw [notify_notices]; split
  · simp; omega
  · exact h

end Sys2Proof.Machine
end

