-- ==== Sys2Proof/Laws/Quiet.lean ====
section
/-!
SUPPORT. What a block's action within a cascade can do, said once: `Quiet s t` names what stays and which
facts of Safety.lean are kept. One lemma for each shared operation.
-/
namespace Sys2Proof.Machine

/-- The inputs and marks of a set that no hand-over changes. -/
def SetRec.outer (r : SetRec) : Bool × Bool × Bool × Bool × Word × Nat :=
  (r.running, r.breaker, r.ready, r.outOfService, r.runSeconds, r.accumulator)

/-- The input and the mark of a feeder that no hand-over changes. -/
def FeederRec.outer (r : FeederRec) : Bool × Bool := (r.breaker, r.outOfService)

/-- `t` follows `s` by actions of RSC, CHU, GSD, FDC, BSS and the parts of CTX and BEN they command. -/
structure Quiet (s t : State) : Prop where
  resetLow : t.resetLow = s.resetLow
  tick : t.tick = s.tick
  lineRate : t.lineRate = s.lineRate
  srx : t.srx = s.srx
  sst : t.sst = s.sst
  pending : t.pending = s.pending
  reply : t.hlc.reply = s.hlc.reply
  slots : t.hlc.slots = s.hlc.slots
  partialFrame : t.hlc.partialFrame = s.hlc.partialFrame
  sequence : t.hlc.sequence = s.hlc.sequence
  line : t.hlc.line = s.hlc.line
  record : t.ben.record = s.ben.record
  starts : t.ben.starts = s.ben.starts
  ring : t.ben.ring = s.ben.ring
  passNumber : t.ben.passNumber = s.ben.passNumber
  stableMs : t.ben.stableMs = s.ben.stableMs
  plants : t.ctx.plants = s.ctx.plants
  ctxLine : t.ctx.line = s.ctx.line
  silent : t.ctx.silent = s.ctx.silent
  fault : t.ctx.fault = s.ctx.fault
  refreshCount : t.ctx.refreshCount = s.ctx.refreshCount
  auto : t.rsc.auto = s.rsc.auto
  faultLatch : t.rsc.faultLatch = s.rsc.faultLatch
  sets : ∀ g, (t.gsd.sets.get g).outer = (s.gsd.sets.get g).outer
  feeders : ∀ f, (t.fdc.feeders.get f).outer = (s.fdc.feeders.get f).outer
  fifo : s.hlc.FifoOk → t.hlc.FifoOk
  zero : s.ctx.ZeroOk → t.ctx.ZeroOk
  grant : s.bss.GrantOk → t.bss.GrantOk
  active : ActiveOk s.sst.mode s.rsc.active → ActiveOk t.sst.mode t.rsc.active
  crank : s.gsd.CrankOk → t.gsd.CrankOk
  restore : s.fdc.RestoreOk → t.fdc.RestoreOk

namespace Quiet

theorem rfl' (s : State) : Quiet s s := by
  constructor <;> first | exact rfl | exact fun _ => rfl | exact id

theorem trans {s t u : State} (h : Quiet s t) (k : Quiet t u) : Quiet s u where
  resetLow := k.resetLow.trans h.resetLow
  tick := k.tick.trans h.tick
  lineRate := k.lineRate.trans h.lineRate
  srx := k.srx.trans h.srx
  sst := k.sst.trans h.sst
  pending := k.pending.trans h.pending
  reply := k.reply.trans h.reply
  slots := k.slots.trans h.slots
  partialFrame := k.partialFrame.trans h.partialFrame
  sequence := k.sequence.trans h.sequence
  line := k.line.trans h.line
  record := k.record.trans h.record
  starts := k.starts.trans h.starts
  ring := k.ring.trans h.ring
  passNumber := k.passNumber.trans h.passNumber
  stableMs := k.stableMs.trans h.stableMs
  plants := k.plants.trans h.plants
  ctxLine := k.ctxLine.trans h.ctxLine
  silent := k.silent.trans h.silent
  fault := k.fault.trans h.fault
  refreshCount := k.refreshCount.trans h.refreshCount
  auto := k.auto.trans h.auto
  faultLatch := k.faultLatch.trans h.faultLatch
  sets := fun g => (k.sets g).trans (h.sets g)
  feeders := fun f => (k.feeders f).trans (h.feeders f)
  fifo := fun x => k.fifo (h.fifo x)
  zero := fun x => k.zero (h.zero x)
  grant := fun x => k.grant (h.grant x)
  active := fun x => k.active (h.active x)
  crank := fun x => k.crank (h.crank x)
  restore := fun x => k.restore (h.restore x)

/-! ### Updates of one block -/

theorem withHandovers (s : State) (x : List Handover) : Quiet s { s with handovers := x } :=
  { rfl' s with }

theorem withChains (s : State) (x : Tab 6 Chain) : Quiet s { s with chains := x } :=
  { rfl' s with }

theorem withBss (s : State) (x : Bss) (h : s.bss.GrantOk → x.GrantOk) : Quiet s { s with bss := x } :=
  { rfl' s with grant := h }

theorem withAPrev (s : State) (x : Int) : Quiet s { s with ben.aPrev := x } :=
  { rfl' s with }

theorem withSuppress (s : State) (x : Bool) : Quiet s { s with rsc.suppress := x } :=
  { rfl' s with }

theorem withRows (s : State) (x : Tab 24 CondRow) : Quiet s { s with rsc.rows := x } :=
  { rfl' s with }

theorem withActive (s : State) (x : Tab 7 (Option ActiveEntry))
    (h : ActiveOk s.sst.mode s.rsc.active → ActiveOk s.sst.mode x) :
    Quiet s { s with rsc.active := x } :=
  { rfl' s with active := h }

theorem withGsd (s : State) (x : Gsd) (h : ∀ g, (x.sets.get g).outer = (s.gsd.sets.get g).outer)
    (k : s.gsd.CrankOk → x.CrankOk) : Quiet s { s with gsd := x } :=
  { rfl' s with sets := h, crank := k }

theorem withFdc (s : State) (x : Fdc)
    (h : ∀ f, (x.feeders.get f).outer = (s.fdc.feeders.get f).outer)
    (k : s.fdc.RestoreOk → x.RestoreOk) : Quiet s { s with fdc := x } :=
  { rfl' s with feeders := h, restore := k }

theorem ite {s : State} {p : Prop} [Decidable p] {f g : State} (hf : p → Quiet s f)
    (hg : ¬p → Quiet s g) : Quiet s (if p then f else g) := by
  split
  · exact hf ‹_›
  · exact hg ‹_›

theorem foldl {α : Type} (l : List α) (f : State → α → State) (hf : ∀ s a, Quiet s (f s a))
    (s : State) : Quiet s (l.foldl f s) := by
  induction l generalizing s with
  | nil => exact rfl' s
  | cons a l ih => exact (hf s a).trans (ih _)

theorem forAll (n : Nat) (f : Fin n → State → State) (hf : ∀ i s, Quiet s (f i s)) (s : State) :
    Quiet s (Machine.forAll n f s) := foldl _ _ (fun s i => hf i s) s

/-! ### Operations of every block -/

theorem notify (k : NoticeKind) (n : Nat) (vs : List Word) (s : State) :
    Quiet s (Machine.notify k n vs s) := by
  have hl := notify_length k n vs s
  unfold Machine.notify at hl ⊢
  split
  · rw [if_pos ‹_›] at hl; exact { rfl' s with fifo := hl }
  · exact { rfl' s with }

theorem emit (m : Handover) (s : State) : Quiet s (Machine.emit m s) := withHandovers s _

theorem modCond (c : Fin 24) (f : CondRow → CondRow) (s : State) :
    Quiet s (Machine.modCond c f s) := withRows s _

theorem modChain (n : Fin 6) (f : Chain → Chain) (s : State) :
    Quiet s (Machine.modChain n f s) := withChains s _

/-- A set's row changes, its state and outer fields apart. -/
theorem modSet (g : Fin 6) (f : SetRec → SetRec) (s : State)
    (ho : ∀ r, (f r).outer = r.outer := by intro; rfl)
    (hs : ∀ r, (f r).state = r.state := by intro; rfl) : Quiet s (Machine.modSet g f s) := by
  have key : ∀ h, ((s.gsd.sets.modify g f).get h).state = (s.gsd.sets.get h).state := by
    intro h; simp only [Tab.modify, Tab.get_put]; split
    · next e => subst e; exact hs _
    · rfl
  refine withGsd s _ (fun h => ?_) (fun ok => ?_)
  · simp only [Tab.modify, Tab.get_put]; split
    · next e => subst e; exact ho _
    · rfl
  · refine ⟨ok.1, fun h => ?_, ?_⟩
    · rw [key]; exact ok.2.1 h
    · rw [Gsd.crankingCount]; simp only [key]; exact ok.2.2

/-- A feeder's row changes, its state and outer fields apart. -/
theorem modFeeder (i : Fin 16) (f : FeederRec → FeederRec) (s : State)
    (ho : ∀ r, (f r).outer = r.outer := by intro; rfl)
    (hs : ∀ r, (f r).state = r.state := by intro; rfl) : Quiet s (Machine.modFeeder i f s) := by
  refine withFdc s _ (fun h => ?_) (fun ok => ⟨ok.1, fun h hh => ?_⟩)
  · simp only [Tab.modify, Tab.get_put]; split
    · next e => subst e; exact ho _
    · rfl
  · simp only [Tab.modify, Tab.get_put]; split
    · next e => subst e; rw [hs]; exact ok.2 _ hh
    · exact ok.2 _ hh

/-! ### RSC -/

theorem setLatch (c : Fin 24) (l : Latch) (s : State) : Quiet s (Machine.setLatch c l s) := by
  unfold Machine.setLatch; split
  · exact rfl' s
  · exact (modCond c _ s).trans (notify _ _ _ _)

theorem moveLatch (c : Fin 24) (b : Bool) (s : State) : Quiet s (Machine.moveLatch c b s) := by
  unfold Machine.moveLatch; split
  · exact rfl' s
  · exact setLatch _ _ s

theorem withTruth (c : Fin 24) (f : State → State) (hf : ∀ s, Quiet s (f s)) (s : State) :
    Quiet s (Machine.withTruth c f s) := by
  unfold Machine.withTruth; dsimp only; split
  · exact hf s
  · exact (hf s).trans (moveLatch _ _ _)

theorem setFlag (c : Fin 24) (x : Option Nat) (s : State) : Quiet s (Machine.setFlag c x s) :=
  withTruth c _ (modCond c _) s

theorem clearFlag (c : Fin 24) (s : State) : Quiet s (Machine.clearFlag c s) :=
  withTruth c _ (modCond c _) s

theorem ackLatch (c : Fin 24) (s : State) : Quiet s (Machine.ackLatch c s) := setLatch _ _ s

theorem routeChanged (c : Fin 24) (old new : Nat) (s : State) :
    Quiet s (Machine.routeChanged c old new s) := by
  unfold Machine.routeChanged; split
  · split
    · exact setLatch _ _ s
    · exact rfl' s
  · split
    · exact setLatch _ _ s
    · exact rfl' s

theorem presentValue (c : Fin 24) (v : Bool) (s : State) : Quiet s (Machine.presentValue c v s) := by
  unfold Machine.presentValue; dsimp only; split
  · exact (withTruth c _ (modCond c _) s).trans (withSuppress _ _)
  · exact withTruth c _ (modCond c _) s

theorem accept (c : Fin 24) (s : State) (run : s.inRun = true) : Quiet s (Machine.accept c s) := by
  unfold Machine.accept; dsimp only
  have q := clearFlag c s
  refine ((q.trans (withActive _ _ ?_)).trans (notify _ _ _ _)).trans (emit _ _)
  intro _ hm
  have : s.sst.mode = .run := by simpa [State.inRun] using run
  exact absurd (by rw [q.sst]; exact this) hm

theorem examine (s : State) : Quiet s (Machine.examine s) := by
  unfold Machine.examine; split
  · split
    · exact rfl' s
    · split
      · exact accept _ s ‹_›
      · exact rfl' s
  · exact rfl' s

theorem present (vs : List (Fin 24 × Bool)) (s : State) : Quiet s (Machine.present vs s) := by
  have q := foldl vs (fun s p => Machine.presentValue p.1 p.2 s) (fun s p => presentValue _ _ s) s
  unfold Machine.present; dsimp only; split
  · exact q.trans (examine _)
  · exact q

theorem takeRaise (c : Fin 24) (n : Nat) (s : State) : Quiet s (Machine.takeRaise c n s) := by
  unfold Machine.takeRaise; split
  · exact (setFlag _ _ s).trans (examine _)
  · exact rfl' s

theorem clearBlackStartFlags (s : State) : Quiet s (Machine.clearBlackStartFlags s) :=
  forAll 24 _ (fun c s => ite (fun _ => clearFlag c s) (fun _ => rfl' s)) s

theorem finishEntry (c : Fin 24) (o : StepOutcome) (l : Fin 7) (e : ActiveEntry) (s : State) :
    Quiet s (Machine.finishEntry c o l e s) := by
  unfold Machine.finishEntry; dsimp only
  refine (Quiet.trans ?_ (notify _ _ _ _)).trans (examine _)
  refine ite (fun _ => Quiet.trans ?_ (withSuppress _ _)) (fun _ => ?_) <;>
  exact ite (fun _ => (modCond c _ s).trans (clearBlackStartFlags _)) (fun _ => modCond c _ s)

theorem complete (c : Fin 24) (o : StepOutcome) (s : State) : Quiet s (Machine.complete c o s) := by
  unfold Machine.complete; split
  · exact rfl' s
  · split
    · exact rfl' s
    · next l _ e _ =>
      refine (withActive s _ ?_).trans (finishEntry _ _ _ _ _)
      intro h hm k
      rw [Tab.get_put]; split
      · rfl
      · exact h hm k

end Quiet

end Sys2Proof.Machine
end

