-- ==== Sys2Proof/Laws/QuietUnits.lean ====
section
/-!
SUPPORT. `Quiet` for the operations of CTX, GSD and FDC that other blocks command.
-/
namespace Sys2Proof.Machine

/-! ### Counting CRANKING sets -/

theorem countP_put_notMem {n : Nat} {α : Type} (p : α → Bool) (t : Tab n α) (g : Fin n) (x : α)
    (l : List (Fin n)) (hg : g ∉ l) :
    l.countP (fun h => p ((t.put g x).get h)) = l.countP fun h => p (t.get h) := by
  apply List.countP_congr
  intro h hh
  have : g ≠ h := fun e => hg (e ▸ hh)
  rw [Tab.get_put_ne _ _ _ _ this]

/-- One row changes: the count loses what the old row gave and gains what the new one gives. -/
theorem countP_put {n : Nat} {α : Type} (p : α → Bool) (t : Tab n α) (g : Fin n) (x : α)
    (l : List (Fin n)) (nd : l.Nodup) (hg : g ∈ l) :
    l.countP (fun h => p ((t.put g x).get h)) + (if p (t.get g) then 1 else 0) =
      l.countP (fun h => p (t.get h)) + if p x then 1 else 0 := by
  induction l with
  | nil => simp at hg
  | cons h l ih =>
    rw [List.nodup_cons] at nd
    rw [List.countP_cons, List.countP_cons]
    by_cases e : g = h
    · subst e
      rw [countP_put_notMem p t g x l nd.1, Tab.get_put_self]; omega
    · have hg' : g ∈ l := by
        rcases List.mem_cons.1 hg with h' | h'
        · exact absurd h' e
        · exact h'
      have := ih nd.2 hg'
      rw [Tab.get_put_ne _ _ _ _ e]; omega

/-- The move of one set keeps the crank queue and the permits in step with the states (R100). -/
theorem crankPlace_ok (d : Gsd) (g : Fin 6) (new : SetState) (x : SetRec)
    (hx : x.state = new) (hne : (d.sets.get g).state ≠ new) (ok : d.CrankOk) :
    Gsd.CrankOk { crankPlace g (d.sets.get g).state new d with sets := d.sets.put g x } := by
  obtain ⟨nd, mem, cnt⟩ := ok
  have hgq : g ∈ d.queue ↔ (d.sets.get g).state = .queued := mem g
  have c := countP_put (fun r : SetRec => decide (r.state = .cranking)) d.sets g x
    (List.finRange 6) (List.nodup_finRange 6) (List.mem_finRange g)
  refine ⟨?_, fun h => ?_, ?_⟩
  · simp only [crankPlace]
    split
    · split
      · next h1 h2 => exact absurd (h2.trans h1.symm) hne
      · next h1 h2 =>
        refine List.nodup_append.2 ⟨nd, by simp, ?_⟩
        intro a ha b hb
        rw [List.mem_singleton] at hb
        subst hb
        exact fun e => h2 (hgq.1 (e ▸ ha))
    · split
      · exact nd.erase g
      · exact nd
  · simp only [crankPlace]
    by_cases e : g = h
    · subst e
      rw [Tab.get_put_self, hx]
      by_cases hq : new = .queued
      · simp [hq]
      · simp only [hq, if_false, iff_false]
        split
        · exact fun hm => (List.Nodup.mem_erase_iff nd).1 hm |>.1 rfl
        · next h2 => exact fun hm => h2 (hgq.1 hm)
    · rw [Tab.get_put_ne _ _ _ _ e, ← mem h]
      have e' : h ≠ g := fun k => e k.symm
      split <;> split <;> simp [e', List.mem_erase_of_ne]
  · simp only [crankPlace, Gsd.crankingCount]
    rw [Gsd.crankingCount] at cnt
    by_cases ho : (d.sets.get g).state = .cranking
    · have hn : new ≠ .cranking := fun k => hne (ho.trans k.symm)
      simp [ho, hx, hn] at c ⊢
      omega
    · simp [ho, hx] at c ⊢
      omega

/-- The move of one feeder keeps the restore queue in step with the states (R135). -/
theorem queuePlace_ok (d : Fdc) (f : Fin 16) (new : FeederState) (x : FeederRec)
    (hx : x.state = new) (hne : (d.feeders.get f).state ≠ new) (ok : d.RestoreOk) :
    Fdc.RestoreOk { d with
      queue := queuePlace f (d.feeders.get f).state new d.queue
      feeders := d.feeders.put f x } := by
  obtain ⟨nd, mem⟩ := ok
  have hout : (d.feeders.get f).state ≠ .openShed → f ∉ d.queue := fun h k => h (mem f k)
  refine ⟨?_, fun h hm => ?_⟩
  · simp only [queuePlace]
    split
    · split
      · next h1 h2 => exact absurd (h2.trans h1.symm) hne
      · next h1 h2 => exact List.nodup_cons.2 ⟨hout h2, nd⟩
    · split
      · exact nd.erase f
      · exact nd
  · simp only [queuePlace] at hm
    by_cases e : f = h
    · subst e
      rw [Tab.get_put_self, hx]
      by_cases hq : new = .openShed
      · exact hq
      exfalso
      simp only [hq, if_false] at hm
      split at hm
      · exact ((List.Nodup.mem_erase_iff nd).1 hm).1 rfl
      · next h2 => exact hout h2 hm
    · rw [Tab.get_put_ne _ _ _ _ e]
      apply mem
      split at hm
      · rcases List.mem_cons.1 hm with k | k
        · exact absurd k.symm e
        · split at k
          · exact List.mem_of_mem_erase k
          · exact k
      · split at hm
        · exact List.mem_of_mem_erase hm
        · exact hm

namespace Quiet

/-! ### CTX -/

theorem notifyChange (a b : Int) (s : State) : Quiet s (Machine.notifyChange a b s) := notify _ _ _ s

theorem moveCap (d : Int) (s : State) : Quiet s (Machine.moveCap d s) := by
  unfold Machine.moveCap; dsimp only; split
  · exact rfl' s
  · refine Quiet.trans ?_ (notifyChange _ _ _)
    exact { rfl' s with }

theorem setForcedZero (s : State) : Quiet s (Machine.setForcedZero s) := by
  unfold Machine.setForcedZero; split
  · exact rfl' s
  · refine Quiet.trans ?_ (notifyChange _ _ _)
    refine { rfl' s with zero := fun _ _ p => ?_ }
    rw [Tab.get_mapIdx]
    cases s.ctx.waiting.get p with
    | some c => exact Or.inr rfl
    | none =>
      dsimp only
      split <;> split <;> first | exact Or.inr rfl | exact Or.inl rfl

theorem clearForcedZero (s : State) : Quiet s (Machine.clearForcedZero s) := by
  unfold Machine.clearForcedZero; split
  · refine Quiet.trans ?_ (notifyChange _ _ _)
    exact { rfl' s with zero := fun _ h => nomatch h }
  · exact rfl' s

theorem liftForcedZero (s : State) : Quiet s (Machine.liftForcedZero s) :=
  (clearForcedZero s).trans (withAPrev _ _)

/-! ### GSD -/

theorem enterSet_outer (s : State) (st : SetState) (r : SetRec) :
    (s.enterSet st r).outer = r.outer := by
  unfold State.enterSet; dsimp only; split <;> rfl

theorem enterSet_state (s : State) (st : SetState) (r : SetRec) : (s.enterSet st r).state = st := by
  unfold State.enterSet; dsimp only; split <;> rfl

theorem tellBss (g : Fin 6) (a b : SetState) (s : State) : Quiet s (Machine.tellBss g a b s) := by
  unfold Machine.tellBss; split
  · exact emit _ s
  · exact rfl' s

theorem reportStart (o : Origin) (g : Fin 6) (ok : Bool) (s : State) :
    Quiet s (Machine.reportStart o g ok s) := by
  unfold Machine.reportStart; split
  · exact emit _ s
  · exact emit _ s
  · exact emit _ s
  · exact rfl' s
  · exact rfl' s

theorem endStart (g : Fin 6) (st : SetState) (s : State) : Quiet s (Machine.endStart g st s) := by
  unfold Machine.endStart; split
  · exact rfl' s
  · split
    · exact (modSet g _ s).trans (reportStart _ _ _ _)
    · exact rfl' s

theorem reportStop (o : Origin) (g : Fin 6) (st : SetState) (s : State) :
    Quiet s (Machine.reportStop o g st s) := by
  unfold Machine.reportStop; split
  · exact emit _ s
  · exact emit _ s
  · exact rfl' s
  · exact rfl' s
  · exact rfl' s

theorem endStop (g : Fin 6) (a b : SetState) (s : State) : Quiet s (Machine.endStop g a b s) := by
  unfold Machine.endStop; split
  · exact rfl' s
  · split
    · exact (modSet g _ s).trans (reportStop _ _ _ _)
    · exact rfl' s

/-- A set's move keeps all that `Quiet` names, whatever the move. -/
theorem moveSet (g : Fin 6) (new : SetState) (s : State) : Quiet s (Machine.moveSet g new s) := by
  unfold Machine.moveSet; dsimp only; split
  · exact rfl' s
  · next hne =>
    refine ((Quiet.trans ?_ (notify _ _ _ _)).trans (tellBss _ _ _ _)).trans
      ((endStart _ _ _).trans (endStop _ _ _ _))
    let s1 : State := { s with gsd := crankPlace g (s.setRec g).state new s.gsd }
    refine withGsd s { crankPlace g (s.setRec g).state new s.gsd with
        sets := s.gsd.sets.put g (s1.enterSet new (s.gsd.sets.get g)) } (fun h => ?_) (fun ok => ?_)
    · rw [Tab.get_put]; split
      · next e => subst e; exact enterSet_outer _ _ _
      · rfl
    · exact crankPlace_ok s.gsd g new _ (enterSet_state _ _ _) hne ok

theorem gsdEvent (f : State → State) (s : State) (hf : Quiet s (f s)) :
    Quiet s (Machine.gsdEvent f s) := by
  refine hf.trans ?_
  unfold Machine.gsdEvent; dsimp only
  have key : ∀ g r, (if (s.setRec g).sameRow r then r else
      { r with revision := r.revision + 1 } : SetRec).state = r.state := by
    intro g r; split <;> rfl
  refine withGsd (f s) _ (fun g => ?_) (fun ok => ⟨ok.1, fun g => ?_, ?_⟩)
  · rw [Tab.get_mapIdx]; split <;> rfl
  · rw [Tab.get_mapIdx, key]; exact ok.2.1 g
  · rw [Gsd.crankingCount]; simp only [Tab.get_mapIdx, key]; exact ok.2.2

theorem serveUpTo (n : Nat) (s : State) : Quiet s (Machine.serveUpTo n s) := by
  induction n generalizing s with
  | zero => exact rfl' s
  | succ n ih =>
    unfold Machine.serveUpTo; split
    · exact rfl' s
    · split
      · exact (moveSet _ _ s).trans (ih _)
      · exact rfl' s

theorem serveQueue (s : State) : Quiet s (Machine.serveQueue s) := serveUpTo 3 s

theorem startSet (g : Fin 6) (o : Origin) (s : State) : Quiet s (Machine.startSet g o s) := by
  unfold Machine.startSet; split
  · exact gsdEvent _ s (((modSet g _ s).trans (moveSet _ _ _)).trans
      (serveQueue _))
  · exact reportStart _ _ _ s

theorem stopSet (g : Fin 6) (o : Option Origin) (s : State) : Quiet s (Machine.stopSet g o s) :=
  gsdEvent _ s ((modSet g _ s).trans (moveSet _ _ _))

theorem startNext (c : Fin 24) (s : State) : Quiet s (Machine.startNext c s) := by
  unfold Machine.startNext; split
  · exact emit _ s
  · exact startSet _ _ s

theorem stopNext (c : Fin 24) (s : State) : Quiet s (Machine.stopNext c s) := by
  unfold Machine.stopNext; split
  · exact emit _ s
  · exact ite (fun _ => emit _ s) (fun _ => stopSet _ _ s)

theorem raiseSet (c : Fin 24) (g : Fin 6) (s : State) : Quiet s (Machine.raiseSet c g s) := emit _ s

theorem enterRunUp (g : Fin 6) (s : State) : Quiet s (Machine.enterRunUp g s) := by
  unfold Machine.enterRunUp; dsimp only; split
  · exact (moveSet _ _ s).trans (moveSet _ _ _)
  · exact moveSet _ _ s

theorem restOrLockout (g : Fin 6) (s : State) : Quiet s (Machine.restOrLockout g s) := by
  unfold Machine.restOrLockout; split
  · exact moveSet _ _ s
  · exact (moveSet _ _ s).trans (raiseSet _ _ _)

theorem runningRisen (g : Fin 6) (s : State) : Quiet s (Machine.runningRisen g s) := by
  unfold Machine.runningRisen
  split <;> first
    | exact rfl' s
    | exact enterRunUp _ s
    | exact (enterRunUp _ s).trans (serveQueue _)

theorem runningFallen (g : Fin 6) (s : State) : Quiet s (Machine.runningFallen g s) := by
  have q := modSet g (fun r => { r with retry := false }) s
  unfold Machine.runningFallen; dsimp only
  split <;> first
    | exact rfl' s
    | exact moveSet _ _ s
    | exact (raiseSet _ _ s).trans (moveSet _ _ _)
    | skip
  exact ite (fun _ => q.trans (restOrLockout _ _)) (fun _ => q.trans (moveSet _ _ _))

theorem setBreakerRisen (g : Fin 6) (s : State) : Quiet s (Machine.setBreakerRisen g s) :=
  ite (fun _ => moveSet _ _ s) (fun _ => rfl' s)

theorem setBreakerFallen (g : Fin 6) (s : State) : Quiet s (Machine.setBreakerFallen g s) :=
  ite (fun _ => (raiseSet _ _ s).trans (moveSet _ _ _)) (fun _ => rfl' s)

theorem readyRisen (g : Fin 6) (s : State) : Quiet s (Machine.readyRisen g s) :=
  ite (fun _ => moveSet _ _ s) (fun _ => rfl' s)

theorem readyFallen (g : Fin 6) (s : State) : Quiet s (Machine.readyFallen g s) := by
  unfold Machine.readyFallen
  split <;> first
    | exact rfl' s
    | exact moveSet _ _ s
    | exact (moveSet _ _ s).trans (serveQueue _)

theorem crankExpired (g : Fin 6) (s : State) : Quiet s (Machine.crankExpired g s) :=
  ((modSet g _ s).trans (restOrLockout _ _)).trans (serveQueue _)

theorem restExpired (g : Fin 6) (s : State) : Quiet s (Machine.restExpired g s) :=
  (moveSet _ _ s).trans (serveQueue _)

theorem syncExpired (g : Fin 6) (s : State) : Quiet s (Machine.syncExpired g s) :=
  (modSet g _ s).trans (moveSet _ _ _)

theorem stopExpired (g : Fin 6) (s : State) : Quiet s (Machine.stopExpired g s) :=
  ((modSet g _ s).trans (moveSet _ _ _)).trans (raiseSet _ _ _)

theorem mapSet (g : Fin 6) (s : State) : Quiet s (Machine.mapSet g s) := moveSet _ _ s

theorem giveUp (g : Fin 6) (s : State) : Quiet s (Machine.giveUp g s) := moveSet _ _ s

theorem holdUnavailable (g : Fin 6) (s : State) : Quiet s (Machine.holdUnavailable g s) := by
  have q := (modSet g (fun r => { r with retry := false }) s).trans (moveSet g .unavailable _)
  unfold Machine.holdUnavailable; dsimp only
  exact ite (fun _ => rfl' s) (fun _ => ite (fun _ => q.trans (serveQueue _)) (fun _ => q))

/-- What acts on a set, or holds it, as `f` does. -/
theorem whileInstalled (f : Fin 6 → State → State) (g : Fin 6) (s : State) (hf : Quiet s (f g s)) :
    Quiet s (Machine.whileInstalled f g s) :=
  ite (fun _ => hf) (fun _ => holdUnavailable g s)

theorem withdrawSets (s : State) : Quiet s (Machine.withdrawSets s) :=
  gsdEvent _ s (forAll 6 _ (fun _ s => ite (fun _ => giveUp _ s) (fun _ => rfl' s)) s)

theorem stopAllSets (s : State) : Quiet s (Machine.stopAllSets s) :=
  forAll 6 _ (fun _ s => ite (fun _ => stopSet _ _ s) (fun _ => rfl' s)) s

/-! ### FDC -/

theorem enterFeeder_outer (s : State) (st : FeederState) (r : FeederRec) :
    (s.enterFeeder st r).outer = r.outer := rfl

/-- A feeder's move keeps all that `Quiet` names, whatever the move. -/
theorem moveFeeder (f : Fin 16) (new : FeederState) (s : State) :
    Quiet s (Machine.moveFeeder f new s) := by
  unfold Machine.moveFeeder; dsimp only; split
  · exact rfl' s
  · next hne =>
    refine Quiet.trans ?_ (notify _ _ _ _)
    let s1 : State := { s with fdc.queue := queuePlace f (s.feederRec f).state new s.fdc.queue }
    refine withFdc s { s.fdc with
        queue := queuePlace f (s.feederRec f).state new s.fdc.queue
        feeders := s.fdc.feeders.put f (s1.enterFeeder new (s.fdc.feeders.get f)) }
      (fun h => ?_) (fun ok => ?_)
    · rw [Tab.get_put]; split
      · next e => subst e; rfl
      · rfl
    · exact queuePlace_ok s.fdc f new _ rfl hne ok

theorem fdcEvent (f : State → State) (s : State) (hf : Quiet s (f s)) :
    Quiet s (Machine.fdcEvent f s) := by
  refine hf.trans ?_
  unfold Machine.fdcEvent; dsimp only
  refine withFdc (f s) _ (fun g => ?_) (fun ok => ⟨ok.1, fun g hg => ?_⟩)
  · rw [Tab.get_mapIdx]; split <;> rfl
  · rw [Tab.get_mapIdx]
    have := ok.2 g hg
    split <;> exact this

theorem reportTrip (o : Option Origin) (f : Fin 16) (ok : Bool) (s : State) :
    Quiet s (Machine.reportTrip o f ok s) := by
  unfold Machine.reportTrip; split
  · exact emit _ s
  · exact emit _ s
  · exact rfl' s

theorem reportClose (o : Option Origin) (f : Fin 16) (ok : Bool) (s : State) :
    Quiet s (Machine.reportClose o f ok s) := by
  unfold Machine.reportClose; split
  · exact emit _ s
  · exact emit _ s
  · exact emit _ s
  · exact rfl' s

theorem beginTrip (f : Fin 16) (o : Origin) (s : State) : Quiet s (Machine.beginTrip f o s) :=
  (modFeeder f _ s).trans (moveFeeder _ _ _)

theorem tripFeeder (f : Fin 16) (o : Origin) (s : State) : Quiet s (Machine.tripFeeder f o s) := by
  unfold Machine.tripFeeder; split
  · exact fdcEvent _ s (beginTrip _ _ s)
  · split
    · exact emit _ s
    · exact rfl' s

theorem closeFeeder (f : Fin 16) (o : Origin) (s : State) :
    Quiet s (Machine.closeFeeder f o s) := by
  unfold Machine.closeFeeder; split
  · exact fdcEvent _ s ((modFeeder f _ s).trans (moveFeeder _ _ _))
  · exact reportClose _ _ _ s

theorem settleClear (s : State) : Quiet s (Machine.settleClear s) := by
  unfold Machine.settleClear; split
  · exact (withFdc s { s.fdc with settleOwed := false } (fun _ => rfl) id).trans (emit _ _)
  · exact rfl' s

theorem tripIfClearing (f : Fin 16) (s : State) : Quiet s (Machine.tripIfClearing f s) :=
  ite (fun _ => beginTrip _ _ s) (fun _ => rfl' s)

theorem restoreNext (c : Fin 24) (s : State) : Quiet s (Machine.restoreNext c s) := by
  unfold Machine.restoreNext; split
  · exact emit _ s
  · exact ite (fun _ => closeFeeder _ _ s) (fun _ => emit _ s)

theorem confirmTrip (f : Fin 16) (s : State) : Quiet s (Machine.confirmTrip f s) :=
  ((moveFeeder f _ s).trans
    (modFeeder f (fun r => { r with origin := none }) _)).trans
    (reportTrip _ _ _ _)

theorem confirmClose (f : Fin 16) (s : State) : Quiet s (Machine.confirmClose f s) :=
  ((moveFeeder f _ s).trans
    (modFeeder f (fun r => { r with origin := none }) _)).trans
    (reportClose _ _ _ _)

theorem feederFallen (f : Fin 16) (s : State) : Quiet s (Machine.feederFallen f s) := by
  have q := confirmTrip f s
  have m := moveFeeder f .openExt s
  unfold Machine.feederFallen
  split
  · exact q.trans (settleClear _)
  · exact m.trans (settleClear _)
  · exact m.trans (settleClear _)
  all_goals exact rfl' s

theorem feederRisen (f : Fin 16) (s : State) : Quiet s (Machine.feederRisen f s) := by
  have q := (confirmClose f s).trans (tripIfClearing f _)
  have m := (moveFeeder f .closed s).trans (tripIfClearing f _)
  unfold Machine.feederRisen
  split
  · exact q.trans (settleClear _)
  · exact m.trans (settleClear _)
  · exact m.trans (settleClear _)
  · exact m.trans (settleClear _)
  all_goals exact rfl' s

theorem breakerExpired (f : Fin 16) (s : State) : Quiet s (Machine.breakerExpired f s) := by
  have q := (moveFeeder f .failed s).trans
    (modFeeder f (fun r => { r with origin := none }) _)
  unfold Machine.breakerExpired; dsimp only
  refine (Quiet.trans ?_ (emit _ _)).trans (settleClear _)
  exact ite (fun _ => q.trans (reportTrip _ _ _ _)) (fun _ => q.trans (reportClose _ _ _ _))

theorem mapFeeder (f : Fin 16) (s : State) : Quiet s (Machine.mapFeeder f s) := by
  unfold Machine.mapFeeder; dsimp only; split
  · exact (moveFeeder _ _ s).trans
      (modFeeder f (fun r => { r with preShed := none }) _)
  · exact moveFeeder _ _ s

theorem fdcEngage (s : State) : Quiet s (Machine.fdcEngage s) :=
  fdcEvent _ s (forAll 16 _ mapFeeder s)

theorem clearBus (s : State) : Quiet s (Machine.clearBus s) := by
  unfold Machine.clearBus; dsimp only
  refine Quiet.trans ?_ (settleClear _)
  refine Quiet.trans (withFdc s { s.fdc with clearFlag := true, settleOwed := true }
    (fun _ => rfl) id) ?_
  exact forAll 16 _ (fun _ s => ite (fun _ => tripFeeder _ _ s) (fun _ => rfl' s)) _

end Quiet

end Sys2Proof.Machine
end

