-- ==== Sys2Proof/Laws/Units.lean ====
section
/-!
SUPPORT. What the move of a set and the move of a feeder do to the rows, and `Quiet` for the operations that
move every row: ENGAGE, the abandonment at a mode change, the rebuild of the restore queue.
-/
namespace Sys2Proof.Machine

/-- After `f` has acted for every index, what it establishes for each index and keeps for the others holds. -/
theorem forAll_all {n : Nat} (f : Fin n → State → State) (P : Fin n → State → Prop)
    (here : ∀ i s, P i (f i s)) (keep : ∀ i j s, i ≠ j → P j s → P j (f i s)) (s : State) (i : Fin n) :
    P i (forAll n f s) := by
  have key : ∀ (l : List (Fin n)) (s : State), (i ∈ l ∨ P i s) →
      P i (l.foldl (fun s i => f i s) s) := by
    intro l
    induction l with
    | nil => intro s h; exact h.resolve_left List.not_mem_nil
    | cons a l ih =>
      intro s h
      rw [List.foldl_cons]
      by_cases e : a = i
      · subst e; exact ih _ (Or.inr (here _ _))
      · refine ih _ ?_
        rcases h with h | h
        · rcases List.mem_cons.1 h with k | k
          · exact absurd k.symm e
          · exact Or.inl k
        · exact Or.inr (keep _ _ _ e h)
  exact key _ s (Or.inl (List.mem_finRange i))

/-! ### Sets -/

theorem notify_setRec (k : NoticeKind) (n : Nat) (vs : List Word) (s : State) (h : Fin 6) :
    (notify k n vs s).setRec h = s.setRec h := by simp [State.setRec]

theorem emit_setRec (m : Handover) (s : State) (h : Fin 6) : (emit m s).setRec h = s.setRec h := rfl

theorem tellBss_setRec (g h : Fin 6) (a b : SetState) (s : State) :
    (tellBss g a b s).setRec h = s.setRec h := by unfold tellBss; split <;> rfl

theorem reportStart_setRec (o : Origin) (g h : Fin 6) (ok : Bool) (s : State) :
    (reportStart o g ok s).setRec h = s.setRec h := by unfold reportStart; split <;> rfl

theorem reportStop_setRec (o : Origin) (g h : Fin 6) (st : SetState) (s : State) :
    (reportStop o g st s).setRec h = s.setRec h := by unfold reportStop; split <;> rfl

theorem endStart_other (g h : Fin 6) (st : SetState) (s : State) (e : g ≠ h) :
    (endStart g st s).setRec h = s.setRec h := by
  unfold endStart; split
  · rfl
  · split
    · rw [reportStart_setRec, modSet_setRec, if_neg e]
    · rfl

theorem endStart_state (g : Fin 6) (st : SetState) (s : State) :
    ((endStart g st s).setRec g).state = (s.setRec g).state := by
  unfold endStart; split
  · rfl
  · split
    · rw [reportStart_setRec, modSet_setRec_self]
    · rfl

theorem endStop_other (g h : Fin 6) (a b : SetState) (s : State) (e : g ≠ h) :
    (endStop g a b s).setRec h = s.setRec h := by
  unfold endStop; split
  · rfl
  · split
    · rw [reportStop_setRec, modSet_setRec, if_neg e]
    · rfl

theorem endStop_state (g : Fin 6) (a b : SetState) (s : State) :
    ((endStop g a b s).setRec g).state = (s.setRec g).state := by
  unfold endStop; split
  · rfl
  · split
    · rw [reportStop_setRec, modSet_setRec_self]
    · rfl

/-- A move touches no other set's row. -/
theorem moveSet_other (g h : Fin 6) (new : SetState) (s : State) (e : g ≠ h) :
    (moveSet g new s).setRec h = s.setRec h := by
  unfold moveSet; dsimp only; split
  · rfl
  · rw [endStop_other _ _ _ _ _ e, endStart_other _ _ _ _ e, tellBss_setRec, notifySet,
      notify_setRec, modSet_setRec, if_neg e]
    rfl

/-- After a move the set is in the state it moved to. -/
theorem moveSet_state (g : Fin 6) (new : SetState) (s : State) :
    ((moveSet g new s).setRec g).state = new := by
  unfold moveSet; dsimp only; split
  · next h => exact h
  · rw [endStop_state, endStart_state, tellBss_setRec, notifySet, notify_setRec, modSet_setRec_self]
    exact Quiet.enterSet_state _ _ _

theorem remapSet_other (g h : Fin 6) (s : State) (e : g ≠ h) :
    (remapSet g s).setRec h = s.setRec h := by
  unfold remapSet; dsimp only
  rw [modSet_setRec, if_neg e, mapSet, moveSet_other _ _ _ _ e, modSet_setRec, if_neg e]

/-- The states the mapping can give (R120). -/
theorem mappedSet_cases (g : Fin 6) (s : State) :
    s.mappedSet g = .unavailable ∨ s.mappedSet g = .online ∨ s.mappedSet g = .runUp ∨
      s.mappedSet g = .standby := by
  unfold State.mappedSet; dsimp only
  repeat' split
  all_goals simp

theorem remapSet_state (g : Fin 6) (s : State) :
    ((remapSet g s).setRec g).state = .unavailable ∨ ((remapSet g s).setRec g).state = .online ∨
      ((remapSet g s).setRec g).state = .runUp ∨ ((remapSet g s).setRec g).state = .standby := by
  unfold remapSet; dsimp only
  rw [modSet_setRec_self, Quiet.enterSet_state, mapSet, moveSet_state]
  exact mappedSet_cases _ _

/-! ### Feeders -/

theorem notify_feederRec (k : NoticeKind) (n : Nat) (vs : List Word) (s : State) (h : Fin 16) :
    (notify k n vs s).feederRec h = s.feederRec h := by simp [State.feederRec]

/-- A move touches no other feeder's row. -/
theorem moveFeeder_other (f h : Fin 16) (new : FeederState) (s : State) (e : f ≠ h) :
    (moveFeeder f new s).feederRec h = s.feederRec h := by
  unfold moveFeeder; dsimp only; split
  · rfl
  · rw [notifyFeeder, notify_feederRec, modFeeder_feederRec, if_neg e]; rfl

/-- After a move the feeder is in the state it moved to. -/
theorem moveFeeder_state (f : Fin 16) (new : FeederState) (s : State) :
    ((moveFeeder f new s).feederRec f).state = new := by
  unfold moveFeeder; dsimp only; split
  · next h => exact h
  · rw [notifyFeeder, notify_feederRec, modFeeder_feederRec_self]; rfl

theorem outer_mapSets (t : Tab 6 SetRec) (f : Fin 6 → SetRec → SetRec)
    (hf : ∀ g r, (f g r).outer = r.outer) (g : Fin 6) :
    ((t.mapIdx f).get g).outer = (t.get g).outer := by rw [Tab.get_mapIdx, hf]

theorem outer_mapFeeders (t : Tab 16 FeederRec) (f : Fin 16 → FeederRec → FeederRec)
    (hf : ∀ i r, (f i r).outer = r.outer) (i : Fin 16) :
    ((t.mapIdx f).get i).outer = (t.get i).outer := by rw [Tab.get_mapIdx, hf]

namespace Quiet

/-- GSD is replaced before and after; in the end its queue and permits are in step. -/
theorem aroundGsd {s t : State} (q : Quiet (releaseSets (dropQueue s)) t)
    (ok : (dropQueue t).gsd.CrankOk) : Quiet s (dropQueue t) :=
  { q with
    sets := fun g => (q.sets g).trans (outer_mapSets s.gsd.sets
      (fun _ r => { r with origin := none, stopOwner := none, timer := none }) (fun _ _ => rfl) g)
    crank := fun _ => ok }

theorem releaseFeeders_outer (s : State) (f : Fin 16) :
    ((releaseFeeders s).fdc.feeders.get f).outer = (s.fdc.feeders.get f).outer :=
  outer_mapFeeders s.fdc.feeders (fun _ r => { r with origin := none, timer := none })
    (fun _ _ => rfl) f

theorem dropRestoreQueue_ok (s : State) : (dropRestoreQueue s).fdc.RestoreOk :=
  ⟨List.nodup_nil, fun _ h => absurd h List.not_mem_nil⟩

/-- FDC is replaced before and after; in the end its queue is in step. -/
theorem aroundFdc {s t : State} (q : Quiet (releaseFeeders (dropRestoreQueue s)) t) :
    Quiet s (dropRestoreQueue t) :=
  have h : ∀ f, (t.fdc.feeders.get f).outer = (s.fdc.feeders.get f).outer := fun f =>
    (q.feeders f).trans (releaseFeeders_outer (dropRestoreQueue s) f)
  { q with feeders := h, restore := fun _ => dropRestoreQueue_ok t }

theorem remapSet (g : Fin 6) (s : State) : Quiet s (Machine.remapSet g s) := by
  unfold Machine.remapSet; dsimp only
  refine Quiet.trans ((modSet g (fun r => { r with attempts := 0, retry := false }) s).trans
    (mapSet g _)) ?_
  have key : ∀ t : State, Quiet t (Machine.modSet g (fun r => t.enterSet r.state r) t) := fun t =>
    modSet g _ t (fun r => enterSet_outer _ _ r) (fun r => enterSet_state _ _ r)
  exact key _

theorem gsdEngage (s : State) : Quiet s (Machine.gsdEngage s) :=
  gsdEvent _ s (forAll 6 _ remapSet s)

/-- The abandonment of R121 leaves no set QUEUED or CRANKING, no queue and no permit. -/
theorem gsdAbandon (s : State) : Quiet s (Machine.gsdAbandon s) := by
  refine gsdEvent _ s (aroundGsd (forAll 6 Machine.remapSet remapSet _) ?_)
  have st := forAll_all (n := 6) Machine.remapSet
    (fun g s => (s.setRec g).state = .unavailable ∨ (s.setRec g).state = .online ∨
      (s.setRec g).state = .runUp ∨ (s.setRec g).state = .standby)
    remapSet_state (fun i j s e h => by rw [remapSet_other i j s e]; exact h)
    (releaseSets (dropQueue s))
  generalize Machine.forAll 6 Machine.remapSet (releaseSets (dropQueue s)) = t at st
  refine ⟨List.nodup_nil, fun g => ⟨fun h => absurd h List.not_mem_nil, fun h => ?_⟩, ?_⟩
  · rcases st g with k | k | k | k <;> cases k.symm.trans h
  · symm
    refine List.countP_eq_zero.2 fun g _ h => ?_
    rcases st g with k | k | k | k <;> cases k.symm.trans (of_decide_eq_true h)

/-- The abandonment of R144. -/
theorem fdcAbandon (s : State) : Quiet s (Machine.fdcAbandon s) :=
  fdcEvent _ s (aroundFdc (forAll 16 Machine.mapFeeder mapFeeder _))

theorem insertRanked_perm (s : State) (f : Fin 16) (q : List (Fin 16)) :
    (s.insertRanked f q).Perm (f :: q) := by
  induction q with
  | nil => exact List.Perm.refl _
  | cons g rest ih =>
    unfold State.insertRanked; split
    · exact List.Perm.refl _
    · exact (List.Perm.cons g ih).trans (List.Perm.swap f g rest)

theorem foldr_insertRanked_perm (s : State) (l : List (Fin 16)) :
    (l.foldr s.insertRanked []).Perm l := by
  induction l with
  | nil => exact List.Perm.refl _
  | cons f l ih => exact (insertRanked_perm s f _).trans (List.Perm.cons f ih)

/-- The rebuilt queue names each feeder once (R142). -/
theorem rebuiltQueue_nodup (s : State) : s.rebuiltQueue.Nodup :=
  (foldr_insertRanked_perm s _).nodup_iff.2 ((List.nodup_finRange 16).filter _)

/-- The rebuild of R142. -/
theorem rebuildQueue (s : State) : Quiet s (Machine.rebuildQueue s) := by
  refine fdcEvent _ s ?_
  dsimp only
  refine Quiet.trans ?_ (notify _ _ _ _)
  let s1 : State := { s with fdc.clearFlag := false }
  let step : Fin 16 → State → State := fun f t =>
    if f ∈ s.rebuiltQueue then Machine.moveFeeder f .openShed t else t
  have q1 : Quiet s s1 := withFdc s _ (fun _ => rfl) id
  have q : Quiet s (Machine.forAll 16 step s1) :=
    q1.trans (forAll 16 step (fun f t => ite (fun _ => moveFeeder _ _ t) (fun _ => rfl' t)) s1)
  have st := forAll_all step
    (fun f t => f ∈ s.rebuiltQueue → (t.feederRec f).state = .openShed)
    (fun f t h => by simp only [step, if_pos h]; exact moveFeeder_state _ _ _)
    (fun i j t e h hj => by
      simp only [step]; split
      · rw [moveFeeder_other i j _ t e]; exact h hj
      · exact h hj) s1
  exact { q with restore := fun _ => ⟨rebuiltQueue_nodup s, fun f hf => st f hf⟩ }

end Quiet

end Sys2Proof.Machine
end

