-- ==== Sys2Proof/Laws/QuietCascade.lean ====
section
/-!
SUPPORT. `Quiet` for CHU, BSS and the delivery of hand-overs: what a whole cascade can do.
-/
namespace Sys2Proof.Machine.Quiet

/-! ### CHU -/

theorem notifyChain (n : Fin 6) (e : Int) (vs : List Word) (s : State) :
    Quiet s (Machine.notifyChain n e vs s) := notify _ _ _ s

theorem beginStep (n : Fin 6) (c : Option (Fin 24)) (us : List PlantUnit) (a b : Nat) (s : State) :
    Quiet s (Machine.beginStep n c us a b s) := modChain n _ s

theorem completeStep (n : Fin 6) (o : StepOutcome) (s : State) :
    Quiet s (Machine.completeStep n o s) := by
  unfold Machine.completeStep; dsimp only
  have q := (modChain n (fun ch => { ch with
    flight := none, trigger := if (s.chain n).count = 0 then none else ch.trigger,
    revision := ch.revision + 1 }) s).trans
      (notifyChain n 2 [sField o.code, sField (s.chain n).count, yesNo ((s.chain n).count = 0)] _)
  refine ite (fun _ => Quiet.trans ?_ (emit _ _)) (fun _ => ?_)
  all_goals
    split
    · exact q.trans (emit _ _)
    · exact q

theorem unitEnded (n : Fin 6) (u : PlantUnit) (ok : Bool) (s : State) :
    Quiet s (Machine.unitEnded n u ok s) := by
  unfold Machine.unitEnded; split
  · exact rfl' s
  · split
    · dsimp only; split
      · exact (modChain n _ s).trans (completeStep _ _ _)
      · exact modChain n _ s
    · exact rfl' s

theorem emptyStep (n : Fin 6) (c : Option (Fin 24)) (a b : Nat) (s : State) :
    Quiet s (Machine.emptyStep n c a b s) := (beginStep _ _ _ _ _ s).trans (completeStep _ _ _)

theorem shedStep (n : Fin 6) (c : Option (Fin 24)) (s : State) :
    Quiet s (Machine.shedStep n c s).1 := by
  unfold Machine.shedStep; dsimp only; split
  · exact emptyStep _ _ _ _ s
  · exact (beginStep _ _ _ _ _ s).trans (foldl _ _ (fun s f => tripFeeder f _ s) _)

theorem restoreStep (n : Fin 6) (c : Option (Fin 24)) (s : State) :
    Quiet s (Machine.restoreStep n c s).1 := by
  unfold Machine.restoreStep; dsimp only; split
  · exact emptyStep _ _ _ _ s
  · split
    · exact emptyStep _ _ _ _ s
    · exact (beginStep _ _ _ _ _ s).trans (foldl _ _ (fun s f => closeFeeder f _ s) _)

theorem startStep (n : Fin 6) (c : Option (Fin 24)) (s : State) :
    Quiet s (Machine.startStep n c s).1 := by
  unfold Machine.startStep; dsimp only; split
  · exact emptyStep _ _ _ _ s
  · exact (beginStep _ _ _ _ _ s).trans (startSet _ _ _)

theorem stopStep (n : Fin 6) (c : Option (Fin 24)) (s : State) :
    Quiet s (Machine.stopStep n c s).1 := by
  unfold Machine.stopStep; dsimp only; split
  · exact emptyStep _ _ _ _ s
  · split
    · exact emptyStep _ _ _ _ s
    · exact (beginStep _ _ _ _ _ s).trans (stopSet _ _ _)

theorem atOnceStep (n : Fin 6) (c : Option (Fin 24)) (f : State → State) (hf : ∀ s, Quiet s (f s))
    (s : State) : Quiet s (Machine.atOnceStep n c f s).1 :=
  ((beginStep _ _ _ _ _ s).trans (hf _)).trans (completeStep _ _ _)

/-- A step of a chain, whatever its kind and mode. -/
theorem takeStep (n : Fin 6) (c : Option (Fin 24)) (s : State) :
    Quiet s (Machine.takeStep n c s).1 := by
  unfold Machine.takeStep; dsimp only; split
  · exact atOnceStep _ _ _ rfl' s
  · split
    · exact shedStep _ _ s
    · exact restoreStep _ _ s
    · exact startStep _ _ s
    · exact stopStep _ _ s
    · exact atOnceStep _ _ _ (moveCap _) s
    · exact atOnceStep _ _ _ (moveCap _) s

theorem chainsResponse (c : Fin 24) (s : State) : Quiet s (Machine.chainsResponse c s) := by
  unfold Machine.chainsResponse; split
  · exact emit _ s
  · exact takeStep _ _ s

theorem bindChain (n : Fin 6) (t : Option (Fin 24)) (k : ChainKind) (l : Fin 4) (a : Nat)
    (m : ChainMode) (b : Nat) (s : State) : Quiet s (Machine.bindChain n t k l a m b s) :=
  (modChain n _ s).trans (notifyChain _ _ _ _)

theorem unbindChain (n : Fin 6) (s : State) : Quiet s (Machine.unbindChain n s) :=
  ite (fun _ => rfl' s) (fun _ => (modChain n _ s).trans (notifyChain _ _ _ _))

theorem abandonStep (n : Fin 6) (s : State) : Quiet s (Machine.abandonStep n s) :=
  ite (fun _ => rfl' s) (fun _ => (modChain n _ s).trans (notifyChain _ _ _ _))

theorem chuAbandon (s : State) : Quiet s (Machine.chuAbandon s) := forAll 6 _ abandonStep s

theorem chuRestart (s : State) : Quiet s (Machine.chuRestart s) :=
  (chuAbandon s).trans (withChains _ _)

/-! ### BSS -/

theorem notifyProgram (c : Cause) (s : State) : Quiet s (Machine.notifyProgram c s) := notify _ _ _ s

/-- BSS changes its state and no set holds the grant. -/
theorem noHolder (s : State) (x : Bss) (h : x.holder = none := by rfl) :
    Quiet s { s with bss := x } := withBss s x (fun _ k => absurd h k)

theorem enterFailed (c : Cause) (s : State) : Quiet s (Machine.enterFailed c s) :=
  (noHolder s _).trans (notifyProgram _ _)

theorem enterClearing (c : Cause) (s : State) : Quiet s (Machine.enterClearing c s) := by
  have q := noHolder s { s.bss.quiet with
    program := .clearing, holder := none, firstSet := none, tried := Tab.const 6 false }
  unfold Machine.enterClearing; dsimp only
  refine Quiet.trans ?_ (clearBus _)
  refine Quiet.trans ?_ (stopAllSets _)
  refine Quiet.trans ?_ (withdrawSets _)
  exact (q.trans (notifyProgram _ _)).trans (setForcedZero _)

theorem startProgram (s : State) : Quiet s (Machine.startProgram s) :=
  (withBss s { s.bss with restarts := 0 } id).trans (enterClearing _ _)

theorem enterEnergizing (g : Fin 6) (s : State) : Quiet s (Machine.enterEnergizing g s) := by
  unfold Machine.enterEnergizing; dsimp only
  exact Quiet.trans (noHolder s _) (notifyProgram _ _)

theorem announceGrant (g : Fin 6) (st : SetState) (s : State) :
    Quiet s (Machine.announceGrant g st s) := by
  unfold Machine.announceGrant; dsimp only
  exact ite (fun _ => (notify _ _ _ s).trans (startSet _ _ _)) (fun _ => notify _ _ _ s)

/-- A selection in FIRST; the new holder is in FIRST. -/
theorem selectFirst (note : State → State) (hn : ∀ s, Quiet s (note s)) (s : State)
    (hp : s.bss.program = .first) : Quiet s (Machine.selectFirst note s) := by
  unfold Machine.selectFirst; split
  · exact (hn s).trans (enterEnergizing _ _)
  · split
    · next g st _ =>
      exact (Quiet.trans (withBss s (grantTo g s).bss (fun _ _ => hp)) (hn _)).trans
        (announceGrant _ _ _)
    · exact (hn s).trans (enterFailed _ _)

theorem enterFirst (c : Cause) (s : State) : Quiet s (Machine.enterFirst c s) :=
  (noHolder s { s.bss.quiet with program := .first, holder := none, firstSet := none }).trans (selectFirst _ (notifyProgram c) _ rfl)

theorem withdrawGrant (n : Int) (s : State) (hp : s.bss.program = .first) :
    Quiet s (Machine.withdrawGrant n s) := by
  unfold Machine.withdrawGrant; split
  · exact rfl' s
  · dsimp only
    refine Quiet.trans (noHolder s { s.bss with holder := none, firstCloseTimer := none }) ?_
    refine (notify _ _ _ _).trans (selectFirst id rfl' _ ?_)
    rw [notify_bss]; exact hp

/-- BSS changes its state outside FIRST and keeps the holder, so that none holds the grant. -/
theorem outsideFirst (s : State) (x : Bss) (hp : s.bss.program ≠ .first)
    (k : x.holder = s.bss.holder := by rfl) : Quiet s { s with bss := x } :=
  withBss s x (fun ok n => absurd (ok (k ▸ n)) hp)

theorem collapse (c : Cause) (s : State) (hp : s.bss.program ≠ .first) :
    Quiet s (Machine.collapse c s) := by
  have q := outsideFirst s { s.bss.quiet with firstSet := none, restarts := s.bss.restarts + 1 } hp
  unfold Machine.collapse; dsimp only
  exact ite (fun _ => q.trans (enterFailed _ _)) (fun _ => q.trans (enterClearing _ _))

theorem liftForcedZero_bss (s : State) : (Machine.liftForcedZero s).bss = s.bss := by
  unfold Machine.liftForcedZero Machine.clearForcedZero Machine.notifyChange; dsimp only
  split
  · rw [notify_bss]
  · rfl

theorem finish (c : Cause) (s : State) (hp : s.bss.program ≠ .first) :
    Quiet s (Machine.finish c s) := by
  unfold Machine.finish; dsimp only
  refine (liftForcedZero s).trans ?_
  have hp' : (Machine.liftForcedZero s).bss.program ≠ .first := by rw [liftForcedZero_bss]; exact hp
  exact Quiet.trans (outsideFirst _ _ hp') ((notifyProgram _ _).trans (emit _ _))

theorem abandonProgram (s : State) (hp : s.bss.program ≠ .first) :
    Quiet s (Machine.abandonProgram s) := by
  unfold Machine.abandonProgram; dsimp only
  refine (liftForcedZero s).trans ?_
  have hp' : (Machine.liftForcedZero s).bss.program ≠ .first := by rw [liftForcedZero_bss]; exact hp
  exact Quiet.trans (outsideFirst _ _ hp') ((notifyProgram _ _).trans (emit _ _))

theorem retryProgram (s : State) : Quiet s (Machine.retryProgram s) :=
  (withBss s { s.bss with restarts := 0 } id).trans (enterClearing _ _)

theorem announceAbort (s : State) : Quiet s (Machine.announceAbort s) := by
  unfold Machine.announceAbort; split
  · exact rfl' s
  · exact notify _ _ _ _

/-- The abort of R160 leaves no holder. -/
theorem abortProgram (s : State) : Quiet s (Machine.abortProgram s) := by
  unfold Machine.abortProgram; split
  · exact rfl' s
  · dsimp only
    exact (announceAbort s).trans (Quiet.trans (noHolder _ _)
      (Quiet.trans (notify _ _ _ _) (clearForcedZero _)))

theorem clearSettled (s : State) : Quiet s (Machine.clearSettled s) :=
  ite (fun _ => (rebuildQueue s).trans (enterFirst _ _)) (fun _ => rfl' s)

theorem firstLost (s : State) : Quiet s (Machine.firstLost s) := by
  unfold Machine.firstLost; dsimp only
  have q := withBss s { s.bss with energizeTimer := none } id
  split
  · exact q.trans (withBss _ _ id)
  · exact q.trans (enterFirst _ _)

theorem setMoved (g : Fin 6) (a b : SetState) (s : State) : Quiet s (Machine.setMoved g a b s) := by
  unfold Machine.setMoved; split
  · next hp =>
    exact ite (fun _ => enterEnergizing g s)
      (fun _ => ite (fun _ => withdrawGrant _ s hp) (fun _ => rfl' s))
  · exact ite (fun _ => firstLost s) (fun _ => rfl' s)
  all_goals exact rfl' s

theorem energizePass (s : State) : Quiet s (Machine.energizePass s) := by
  unfold Machine.energizePass; split
  · split
    · exact rfl' s
    · exact withBss s _ id
  · exact withBss s _ id

theorem closeHead (f : Fin 16) (s : State) : Quiet s (Machine.closeHead f s) := by
  have q := withBss s { s.bss with phase := some .close, awaited := some (.feeder f) } id
  exact (q.trans (notify _ _ _ _)).trans (closeFeeder _ _ _)

theorem startForHeadroom (g : Fin 6) (s : State) : Quiet s (Machine.startForHeadroom g s) := by
  have q := withBss s { s.bss with phase := some .start, awaited := some (.set g) } id
  exact (q.trans (notify _ _ _ _)).trans (startSet _ _ _)

theorem restoreDecision (s : State) (hp : s.bss.program ≠ .first) :
    Quiet s (Machine.restoreDecision s) := by
  unfold Machine.restoreDecision; split
  · exact finish _ s hp
  · split
    · exact closeHead _ s
    · split
      · exact startForHeadroom _ s
      · exact finish _ s hp

theorem bssPass (s : State) : Quiet s (Machine.bssPass s) := by
  unfold Machine.bssPass; split
  · exact energizePass s
  · next hp =>
    exact ite (fun _ => restoreDecision s (by rw [hp]; exact nofun)) (fun _ => rfl' s)
  all_goals exact rfl' s

theorem closeEnded (f : Fin 16) (s : State) : Quiet s (Machine.closeEnded f s) :=
  ite (fun _ => withBss s _ id) (fun _ => rfl' s)

theorem startEnded (g : Fin 6) (ok : Bool) (s : State) : Quiet s (Machine.startEnded g ok s) := by
  unfold Machine.startEnded; split
  · next h =>
    have hp : s.bss.program ≠ .first := by
      simp only [Bool.and_eq_true, decide_eq_true_eq] at h
      rw [h.1.1]; exact nofun
    split
    · exact withBss s _ id
    · exact (withBss s { s.bss with awaited := none } id).trans (finish _ _ hp)
  · exact rfl' s

theorem busDied (s : State) : Quiet s (Machine.busDied s) := by
  unfold Machine.busDied; split
  · next h =>
    refine collapse _ s fun e => ?_
    rw [e] at h; exact absurd h (by decide)
  · exact rfl' s

theorem firstCloseExpired (s : State) : Quiet s (Machine.firstCloseExpired s) :=
  ite (fun hp => withdrawGrant _ s hp) (fun _ => rfl' s)

theorem energizeExpired (s : State) : Quiet s (Machine.energizeExpired s) := by
  unfold Machine.energizeExpired; split
  · next hp =>
    have q := outsideFirst s { s.bss.quiet with program := .restoring, phase := some .wait }
      (by rw [hp]; exact nofun)
    exact q.trans (notifyProgram _ _)
  · exact rfl' s

theorem limitExpired (s : State) : Quiet s (Machine.limitExpired s) :=
  ite (fun hp => collapse _ s (by rw [hp]; exact nofun)) (fun _ => rfl' s)

theorem settleExpired (s : State) : Quiet s (Machine.settleExpired s) :=
  ite (fun _ => withBss s _ id) (fun _ => rfl' s)

/-! ### Hand-overs -/

theorem startResponse (c : Fin 24) (k : ResponseKind) (s : State) :
    Quiet s (Machine.startResponse c k s) := by
  unfold Machine.startResponse; split
  · exact rfl' s
  · exact chainsResponse _ s
  · exact startNext _ s
  · exact stopNext _ s
  · exact restoreNext _ s
  · exact startProgram s

/-- Whatever is handed over, the receiving block keeps what `Quiet` names. -/
theorem deliver (m : Handover) (s : State) : Quiet s (Machine.deliver m s) := by
  unfold Machine.deliver; split
  · exact present _ s
  · exact takeRaise _ _ s
  · exact complete _ _ s
  · exact examine s
  · exact startResponse _ _ s
  · exact unitEnded _ _ _ s
  · exact setMoved _ _ _ s
  · exact startEnded _ _ s
  · exact clearSettled s
  · exact rfl' s
  · exact closeEnded _ s
  · exact bssPass s
  · exact busDied s

theorem deliverNext (s : State) : Quiet s (Machine.deliverNext s) := by
  unfold Machine.deliverNext; split
  · exact rfl' s
  · exact ((withHandovers s []).trans (deliver _ _)).trans (withHandovers _ _)

/-- A whole cascade. -/
theorem drain (n : Nat) (s : State) : Quiet s (Machine.drain n s) := by
  induction n generalizing s with
  | zero => exact rfl' s
  | succ n ih =>
    unfold Machine.drain; split
    · exact rfl' s
    · exact (deliverNext s).trans (ih _)

/-- An event and its cascade keep what the event keeps. -/
theorem runEvent (f : State → State) (s : State) (hf : Quiet s (f s)) :
    Quiet s (Machine.runEvent f s) := hf.trans (drain _ _)

end Sys2Proof.Machine.Quiet
end

