-- ==== Sys2Proof/Laws/Requests.lean ====
section
/-!
SUPPORT. What the shared operations of commands can do, said once: the taking of a request, of an event and of an
input, the expiry of a timer, a cascade in which nothing waits, a set that is not installed, when an event is ready, and a
character that joins a partial host frame.
-/
namespace Sys2Proof.Machine

/-- With no hand-over waiting, a cascade does nothing. -/
theorem drain_nil (n : Nat) (s : State) (h : s.handovers = []) : drain n s = s := by
  cases n with
  | zero => rfl
  | succ n => simp [drain, h]

/-- The oldest hand-over is taken first. -/
theorem drain_cons (n : Nat) (s : State) (m : Handover) (rest : List Handover)
    (h : s.handovers = m :: rest) :
    drain (n + 1) s = drain n { deliver m { s with handovers := [] } with
      handovers := queueUp (deliver m { s with handovers := [] }).handovers rest } := by
  simp [drain, deliverNext, h]

@[simp] theorem queueUp_nil (new : List Handover) : queueUp new [] = new := rfl

/-- A hand-over that makes no other leaves those that wait as they are. -/
@[simp] theorem queueUp_none (waiting : List Handover) : queueUp [] waiting = waiting := by
  induction waiting with
  | nil => rfl
  | cons r rest ih => simp [queueUp, ih]

/-- New hand-overs none of which follows one that waits stand before all of them. -/
theorem queueUp_free (new waiting : List Handover) (h : ∀ m ∈ new, ∀ r ∈ waiting, m.follows r = false) :
    queueUp new waiting = new ++ waiting := by
  cases waiting with
  | nil => simp
  | cons r rest =>
    have free : ∀ m ∈ new, (r :: rest).any m.follows = false := fun m hm =>
      List.any_eq_false.2 fun q hq => by simp [h m hm q hq]
    have all : new.filter (fun m => !(r :: rest).any m.follows) = new :=
      List.filter_eq_self.2 fun m hm => by rw [free m hm]; rfl
    have none : new.filter (fun m => (r :: rest).any m.follows) = [] :=
      List.filter_eq_nil_iff.2 fun m hm => by rw [free m hm]; exact Bool.false_ne_true
    rw [queueUp, all, none, queueUp_none]

/-- An event that hands nothing over is its own effect. -/
theorem runEvent_nil (f : State → State) (s : State) (h : (f s).handovers = []) :
    runEvent f s = f s := drain_nil _ _ h

/-- A request that is the oldest held, or arrives while none is held, is served. -/
theorem takeRequest_held {kind tag : Byte} {body : List Byte} {fits : Bool}
    {act : Reply → State → State} {s : State} (hr : s.resetLow = false)
    (hs : s.hlc.slots = [] ∨ ∃ rest, s.hlc.slots = ⟨kind, tag, body⟩ :: rest) :
    takeRequest kind tag body fits act s =
      serveRequest kind tag fits act (sendReply { s with hlc.slots := s.hlc.slots.tail }) := by
  unfold takeRequest
  rw [if_neg (by simp [hr])]
  rcases hs with e | ⟨rest, e⟩
  · have t : { s with hlc.slots := s.hlc.slots.tail } = s := by
      rw [e]
      cases s with | mk _ _ _ _ _ _ _ _ _ _ _ _ h _ _ => cases h; simp only at e; subst e; rfl
    rw [t, e]
  · simp [e]

/-- A request whose body does not fit is answered LENGTH. -/
theorem serveRequest_unfit (kind tag : Byte) (act : Reply → State → State) (s : State) :
    serveRequest kind tag false act s = answer kind tag .length [] s := rfl

/-- A request that fits acts, with its cascade. -/
theorem serveRequest_fit (kind tag : Byte) (act : Reply → State → State) (s : State) :
    serveRequest kind tag true act s = drain Config.cascadeFuel (act (answer kind tag) s) := rfl

/-- An event is taken while RESET_N is high. -/
theorem takeEvent_high (f : State → State) (s : State) (h : s.resetLow = false) :
    takeEvent f s = drain Config.cascadeFuel (f s) := by simp [takeEvent, h, runEvent]

/-- An input changes and its block acts while RESET_N is high. -/
theorem takeInput_high (level f : State → State) (s : State) (h : s.resetLow = false) :
    takeInput level f s = drain Config.cascadeFuel (f (level s)) := by
  simp [takeInput, h, runEvent]

/-- An event that leaves the state as it is leaves every feeder row as it is, its revision too. -/
theorem fdcEvent_of_eq (f : State → State) (s : State) (h : f s = s) : fdcEvent f s = s := by
  have rows : s.fdc.feeders.mapIdx (fun i r =>
      if (s.feederRec i).sameRow r then r else { r with revision := r.revision + 1 }) = s.fdc.feeders :=
    Tab.ext_get fun i => by rw [Tab.get_mapIdx]; simp [State.feederRec, FeederRec.sameRow]
  simp only [fdcEvent, h, rows]

/-- A timer that runs comes to its due time, and its expiry acts. -/
theorem expire_running (due : Tick) (f : State → State) (s : State) :
    expire (some due) f s = f (advanceTo due s) := rfl

/-- An event at GSD that changes nothing leaves every revision. -/
theorem gsdEvent_of_eq (f : State → State) (s : State) (h : f s = s) : gsdEvent f s = s := by
  have rows : s.gsd.sets.mapIdx (fun g r =>
      if (s.setRec g).sameRow r then r else { r with revision := r.revision + 1 }) = s.gsd.sets :=
    Tab.ext_get fun g => by rw [Tab.get_mapIdx]; simp [State.setRec, SetRec.sameRow]
  simp only [gsdEvent, h, rows]

/-- `f` acts on a set that is installed. -/
theorem whileInstalled_installed (f : Fin 6 → State → State) (g : Fin 6) (s : State)
    (h : s.setInstalled g = true) : whileInstalled f g s = f g s := if_pos h

/-- A set that is not installed is held UNAVAILABLE. -/
theorem whileInstalled_absent (f : Fin 6 → State → State) (g : Fin 6) (s : State)
    (h : s.setInstalled g = false) : whileInstalled f g s = holdUnavailable g s :=
  if_neg (by rw [h]; exact Bool.false_ne_true)

/-- A set that is UNAVAILABLE already is held there without a change. -/
theorem holdUnavailable_unavailable (g : Fin 6) (s : State) (h : (s.setRec g).state = .unavailable) :
    holdUnavailable g s = s := if_pos h

/-- An idle timer does not expire. -/
theorem expire_idle (f : State → State) (s : State) : expire none f s = s := rfl

/-- A timer is due when it runs and nothing remains until its due tick. -/
theorem due_iff (s : State) (t : Option Tick) : s.due t = true ↔ ∃ d, t = some d ∧ s.remaining d = 0 := by
  cases t <;> simp [State.due]

@[simp] theorem mem_onlyIf (b : Bool) (i j : Instr) : j ∈ onlyIf b i ↔ b = true ∧ j = i := by
  cases b <;> simp [onlyIf]

/-- The due tick of a partial frame has not come when its last character has just arrived. -/
theorem joinable_holdPartial (chars : List Byte) (s : State) : joinable (holdPartial chars s) = chars := by
  have later : (holdPartial chars s).remaining (s.dueIn Config.characterIdleMs) = 3 := by
    have d : s.dueIn Config.characterIdleMs - (holdPartial chars s).tick = 3 := by
      show s.tick + 3 - s.tick = 3
      bv_omega
    simp only [State.remaining, d]
    rfl
  show (if (holdPartial chars s).remaining (s.dueIn Config.characterIdleMs) = 0 then [] else chars) = chars
  rw [later]
  rfl

/-- A character in time: the frame is dropped at a length above 240, ends, or goes on. -/
theorem hostChar_joins (s : State) (c : Byte) (h : joinable s ≠ []) :
    hostChar s c =
      let q := joinable s ++ [c]
      if q.length = 2 ∧ Config.maxBody < announced q then dropPartial s
      else if 2 ≤ q.length ∧ q.length = 6 + announced q then placeFrame q (dropPartial s)
      else holdPartial q s := by
  unfold hostChar
  cases e : joinable s with
  | nil => exact absurd e h
  | cons a t => rfl

end Sys2Proof.Machine
end

