-- ==== Sys2Proof/Laws/Keeps.lean ====
section
/-!
SUPPORT. The seven facts of Safety.lean are kept by every shared operation: `Keeps s t`. An operation that is
`Quiet` keeps them (`Keeps.ofQuiet`); the others have a lemma each.
-/
namespace Sys2Proof.Machine

/-- `t` keeps every fact of Safety.lean that `s` has. -/
structure Keeps (s t : State) : Prop where
  fifo : s.hlc.FifoOk → t.hlc.FifoOk
  slots : s.hlc.SlotsOk → t.hlc.SlotsOk
  zero : s.ctx.ZeroOk → t.ctx.ZeroOk
  grant : s.bss.GrantOk → t.bss.GrantOk
  active : ActiveOk s.sst.mode s.rsc.active → ActiveOk t.sst.mode t.rsc.active
  crank : s.gsd.CrankOk → t.gsd.CrankOk
  restore : s.fdc.RestoreOk → t.fdc.RestoreOk

namespace Keeps

theorem rfl' (s : State) : Keeps s s := ⟨id, id, id, id, id, id, id⟩

theorem trans {s t u : State} (h : Keeps s t) (k : Keeps t u) : Keeps s u :=
  ⟨k.fifo ∘ h.fifo, k.slots ∘ h.slots, k.zero ∘ h.zero, k.grant ∘ h.grant, k.active ∘ h.active,
    k.crank ∘ h.crank, k.restore ∘ h.restore⟩

theorem ofQuiet {s t : State} (q : Quiet s t) : Keeps s t :=
  ⟨q.fifo, fun h => by unfold Hlc.SlotsOk; rw [q.slots]; exact h, q.zero, q.grant, q.active, q.crank,
    q.restore⟩

theorem ite {s : State} {p : Prop} [Decidable p] {f g : State} (hf : p → Keeps s f)
    (hg : ¬p → Keeps s g) : Keeps s (if p then f else g) := by
  split
  · next h => exact hf h
  · next h => exact hg h

theorem forAll (n : Nat) (f : Fin n → State → State) (hf : ∀ i s, Keeps s (f i s)) (s : State) :
    Keeps s (Machine.forAll n f s) := by
  have key : ∀ (l : List (Fin n)) (s : State), Keeps s (l.foldl (fun s i => f i s) s) := by
    intro l
    induction l with
    | nil => exact fun s => rfl' s
    | cons i l ih => exact fun s => (hf i s).trans (ih _)
  exact key _ s

/-! ### Updates of one block -/

theorem withSrx (s : State) (x : Srx) : Keeps s { s with srx := x } := { rfl' s with }
theorem withBen (s : State) (x : Ben) : Keeps s { s with ben := x } := { rfl' s with }
theorem withTick (s : State) (x : Tick) : Keeps s { s with tick := x } := { rfl' s with }

theorem withCtx (s : State) (x : Ctx) (h : s.ctx.ZeroOk → x.ZeroOk) : Keeps s { s with ctx := x } :=
  { rfl' s with zero := h }

theorem withHlc (s : State) (x : Hlc) (h : s.hlc.FifoOk → x.FifoOk) (k : s.hlc.SlotsOk → x.SlotsOk) :
    Keeps s { s with hlc := x } := { rfl' s with fifo := h, slots := k }

theorem withSst (s : State) (x : Sst) (h : x.mode = s.sst.mode) : Keeps s { s with sst := x } :=
  { rfl' s with active := fun k => by show ActiveOk x.mode s.rsc.active; rw [h]; exact k }

theorem withRsc (s : State) (x : Rsc) (h : x.active = s.rsc.active) : Keeps s { s with rsc := x } :=
  { rfl' s with active := fun k => by show ActiveOk s.sst.mode x.active; rw [h]; exact k }

/-- The sets change in fields other than the state. -/
theorem withSets (s : State) (x : Tab 6 SetRec)
    (h : ∀ g, (x.get g).state = (s.gsd.sets.get g).state) : Keeps s { s with gsd.sets := x } :=
  { rfl' s with
    crank := fun ok => by
      refine ⟨ok.1, fun g => ?_, ?_⟩
      · show g ∈ s.gsd.queue ↔ (x.get g).state = _
        rw [h g]; exact ok.2.1 g
      · show s.gsd.permits = _
        rw [ok.2.2]; unfold Gsd.crankingCount; simp only [h] }

/-- The feeders change in fields other than the state. -/
theorem withFeeders (s : State) (x : Tab 16 FeederRec)
    (h : ∀ f, (x.get f).state = (s.fdc.feeders.get f).state) : Keeps s { s with fdc.feeders := x } :=
  { rfl' s with
    restore := fun ok => ⟨ok.1, fun f hf => by
      show (x.get f).state = _
      rw [h f]; exact ok.2 f hf⟩ }

theorem modSet (g : Fin 6) (f : SetRec → SetRec) (s : State)
    (hs : ∀ r, (f r).state = r.state := by intro; rfl) : Keeps s (Machine.modSet g f s) :=
  withSets s _ fun i => by
    by_cases e : g = i
    · subst e; rw [Tab.get_modify_self, hs]
    · rw [Tab.get_modify_ne _ _ _ _ e]

theorem modFeeder (i : Fin 16) (f : FeederRec → FeederRec) (s : State)
    (hs : ∀ r, (f r).state = r.state := by intro; rfl) : Keeps s (Machine.modFeeder i f s) :=
  withFeeders s _ fun j => by
    by_cases e : i = j
    · subst e; rw [Tab.get_modify_self, hs]
    · rw [Tab.get_modify_ne _ _ _ _ e]

theorem modPlant (p : Fin 8) (f : Plant → Plant) (s : State) : Keeps s (Machine.modPlant p f s) :=
  withCtx s _ id

/-! ### Time, the link and the replies -/

theorem advance (d : Nat) (s : State) : Keeps s (Machine.advance d s) := by
  unfold Machine.advance
  refine ((withTick s (s.tick + BitVec.ofNat 32 d)).trans (withBen _ { s.ben with
    stableMs := min Config.stableLimit (s.ben.stableMs + d) })).trans (withSets _ _ fun g => ?_)
  rw [Tab.get_mapIdx]; split <;> rfl

theorem advanceTo (due : Tick) (s : State) : Keeps s (Machine.advanceTo due s) :=
  ite (fun _ => rfl' s) (fun _ => advance _ s)

theorem expire (timer : Option Tick) (f : State → State) (hf : ∀ s, Keeps s (f s)) (s : State) :
    Keeps s (Machine.expire timer f s) := by
  unfold Machine.expire; split
  · exact rfl' s
  · exact (advanceTo _ s).trans (hf _)

theorem answer (kind tag : Byte) (st : Status) (vs : List Byte) (s : State) :
    Keeps s (Machine.answer kind tag st vs s) := withHlc s _ id id

theorem sendReply (s : State) : Keeps s (Machine.sendReply s) := by
  unfold Machine.sendReply; split
  · exact rfl' s
  · exact withHlc s _ id id

theorem sendNotice (s : State) : Keeps s (Machine.sendNotice s) := by
  unfold Machine.sendNotice; split
  · next n rest _ h =>
    refine withHlc s _ (fun k => ?_) id
    show rest.length ≤ _
    unfold Hlc.FifoOk at k; rw [h] at k
    exact Nat.le_trans (Nat.le_succ _) k
  · exact rfl' s

theorem placeFrame (p : List Byte) (s : State) : Keeps s (Machine.placeFrame p s) := by
  unfold Machine.placeFrame
  refine ite (fun h => withHlc s _ id fun _ => ?_) (fun _ => rfl' s)
  simp only [Bool.and_eq_true, decide_eq_true_eq] at h
  show (s.hlc.slots ++ [frameOf p]).length ≤ _
  rw [List.length_append]; exact h.2

theorem holdPartial (chars : List Byte) (s : State) : Keeps s (Machine.holdPartial chars s) :=
  withHlc s _ id id

theorem dropPartial (s : State) : Keeps s (Machine.dropPartial s) := withHlc s _ id id

theorem hostChar (s : State) (c : Byte) : Keeps s (Machine.hostChar s c) := by
  unfold Machine.hostChar; split
  · exact ite (fun _ => holdPartial _ s) (fun _ => dropPartial s)
  · exact ite (fun _ => dropPartial s)
      (fun _ => ite (fun _ => (dropPartial s).trans (placeFrame _ _)) (fun _ => holdPartial _ s))

theorem hostChars (cs : List Byte) (s : State) : Keeps s (Machine.hostChars cs s) := by
  unfold Machine.hostChars
  induction cs generalizing s with
  | nil => exact rfl' s
  | cons c cs ih => exact (hostChar s c).trans (ih _)

/-- A request keeps what its act keeps. -/
theorem takeRequest (kind tag : Byte) (body : List Byte) (fits : Bool) (act : Reply → State → State)
    (ha : ∀ s, Keeps s (act (Machine.answer kind tag) s)) (s : State) :
    Keeps s (Machine.takeRequest kind tag body fits act s) := by
  have serve : ∀ s, Keeps s (serveRequest kind tag fits act s) := fun s =>
    ite (fun _ => (ha s).trans (ofQuiet (Quiet.drain _ _))) (fun _ => answer _ _ _ _ s)
  unfold Machine.takeRequest; split
  · exact rfl' s
  · split
    · exact (sendReply s).trans (serve _)
    · next f rest h =>
      refine ite (fun _ => ?_) (fun _ => rfl' s)
      refine Keeps.trans (withHlc s { s.hlc with slots := rest } id fun k => ?_)
        ((sendReply _).trans (serve _))
      unfold Hlc.SlotsOk at k ⊢; rw [h] at k
      exact Nat.le_trans (Nat.le_succ _) k

/-- An event keeps what its effect keeps. -/
theorem takeEvent (f : State → State) (hf : ∀ s, Keeps s (f s)) (s : State) :
    Keeps s (Machine.takeEvent f s) :=
  ite (fun _ => rfl' s) (fun _ => (hf s).trans (ofQuiet (Quiet.drain _ _)))

theorem takeInput (level f : State → State) (hl : ∀ s, Keeps s (level s)) (hf : ∀ s, Keeps s (f s))
    (s : State) : Keeps s (Machine.takeInput level f s) :=
  ite (fun _ => hl s) (fun _ => ((hl s).trans (hf _)).trans (ofQuiet (Quiet.drain _ _)))

/-! ### SRX -/

theorem reportJudgements (old : Tab 31 HeadEntry) (s : State) :
    Keeps s (Machine.reportJudgements old s) :=
  forAll 31 _ (fun _ s => ite (fun _ => ofQuiet (Quiet.notify _ _ _ s)) (fun _ => rfl' s)) s

theorem takePower (h : Fin 31) (stamp : Stamp) (v : Int) (s : State) :
    Keeps s (Machine.takePower h stamp v s) :=
  (withSrx s _).trans (reportJudgements _ _)

theorem powerAct (x : Sample) (s : State) : Keeps s (Machine.powerAct x s) := by
  unfold Machine.powerAct; split
  · exact ite (fun _ => takePower _ _ _ s) (fun _ => rfl' s)
  · exact rfl' s

theorem endSilent (s : State) : Keeps s (Machine.endSilent s) :=
  ite (fun _ => (withCtx s { s.ctx with silent := none } id).trans
    (ofQuiet (Quiet.notifyChange _ _ _))) (fun _ => rfl' s)

theorem endSilence (s : State) : Keeps s (Machine.endSilence s) :=
  ite (fun _ => ((withSrx s _).trans (ofQuiet (Quiet.emit _ _))).trans (endSilent _)) (fun _ => rfl' s)

theorem deadTimerAt (k l : BusKind) (s : State) : Keeps s (Machine.deadTimerAt k l s) :=
  ite (fun _ => ite (fun _ => rfl' s) (fun _ => withSrx s _)) (fun _ => withSrx s _)

theorem takeBusRecord (k : BusKind) (stamp : Stamp) (v : Nat) (s : State) :
    Keeps s (Machine.takeBusRecord k stamp v s) := by
  unfold Machine.takeBusRecord; dsimp only
  refine (endSilence s).trans ?_
  refine Keeps.trans (withSrx _ { (Machine.endSilence s).srx with
    heads := (Machine.endSilence s).tableAfter stamp v, busStamp := some stamp, lastKind := k }) ?_
  refine Keeps.trans (reportJudgements (Machine.endSilence s).srx.heads _) ?_
  refine Keeps.trans ?_ (withBen _ _)
  refine Keeps.trans ?_ (ofQuiet (Quiet.emit _ _))
  refine Keeps.trans ?_ (ofQuiet (Quiet.emit _ _))
  refine Keeps.trans ?_ (deadTimerAt k (Machine.endSilence s).srx.lastKind _)
  exact withSrx _ _

theorem busAct (x : Sample) (s : State) : Keeps s (Machine.busAct x s) := by
  unfold Machine.busAct; split
  · exact takeBusRecord _ _ _ s
  · exact rfl' s

theorem takeBurst (burst : List Byte) (act : Sample → State → State) (ha : ∀ x s, Keeps s (act x s))
    (s : State) : Keeps s (Machine.takeBurst burst act s) := by
  unfold Machine.takeBurst
  refine ite (fun _ => ?_) (fun _ => rfl' s)
  dsimp only; split
  · exact withSrx s _
  · exact (withSrx s _).trans (ha _ _)

theorem receiveBurst (burst : List Byte) (s : State) : Keeps s (Machine.receiveBurst burst s) := by
  unfold Machine.receiveBurst; split
  · exact withSrx s _
  · exact rfl' s

/-! ### CTX -/

theorem makePending (p : Fin 8) (c : Int) (s : State) : Keeps s (Machine.makePending p c s) :=
  withCtx s _ fun z hf q => by
    show (s.ctx.waiting.put p _).get q = none ∨ (s.ctx.waiting.put p _).get q = some 0
    have hf' : s.ctx.forcedZero = true := hf
    rw [Tab.get_put]
    split
    · exact .inr rfl
    · exact z hf' q

theorem emptyPending (s : State) : Keeps s (Machine.emptyPending s) :=
  withCtx s _ fun _ _ q => .inl (Tab.get_const _ q)

theorem fallbackFill (f : Fallback) (s : State) : Keeps s (Machine.fallbackFill f s) := by
  unfold Machine.fallbackFill; split
  · exact rfl' s
  · exact forAll 8 _ (fun p s => ite (fun _ => makePending p 0 s) (fun _ => rfl' s)) s
  · exact forAll 8 _ (fun p s => ite (fun _ => makePending p _ s) (fun _ => rfl' s)) s

theorem beginSilent (s : State) : Keeps s (Machine.beginSilent s) :=
  ite (fun _ => Keeps.trans (Keeps.trans (withCtx s { s.ctx with
      silent := some ⟨fallbackOf (s.sys Sys.silentFallback), s.dueIn Config.silentTickMs⟩ } id)
      (ofQuiet (Quiet.notifyChange 2 1 _)))
    (fallbackFill _ _)) (fun _ => rfl' s)

theorem beginFault (s : State) : Keeps s (Machine.beginFault s) :=
  Keeps.trans (Keeps.trans (emptyPending s) (withCtx _ { (Machine.emptyPending s).ctx with
    fault := some ⟨fallbackOf (s.sys Sys.faultFallback), s.dueIn Config.faultTickMs⟩ } id))
    (fallbackFill _ _)

theorem silentTick (r : FallbackRun) (s : State) : Keeps s (Machine.silentTick r s) :=
  Keeps.trans (withCtx s { s.ctx with
    silent := some { r with due := r.due + BitVec.ofNat 32 Config.silentTickMs } } id) (fallbackFill _ _)

theorem faultTick (r : FallbackRun) (s : State) : Keeps s (Machine.faultTick r s) :=
  Keeps.trans (withCtx s { s.ctx with
    fault := some { r with due := r.due + BitVec.ofNat 32 Config.faultTickMs } } id) (fallbackFill _ _)

theorem takeCeilings (cs : Tab 8 (Option Int)) (s : State) : Keeps s (Machine.takeCeilings cs s) := by
  unfold Machine.takeCeilings
  refine ite (fun _ => ?_) (fun _ => rfl' s)
  dsimp only
  refine Keeps.trans (withCtx s { s.ctx with refreshCount :=
    (if (decide (s.sysNat Sys.refreshPasses ≤ s.ctx.refreshCount + 1)) = true then 0
    else s.ctx.refreshCount + 1) } id) (forAll 8 _ (fun p s => ?_) _)
  split
  · exact rfl' s
  · exact ite (fun _ => makePending _ _ s) (fun _ => rfl' s)

theorem startCeiling (p : Fin 8) (c : Int) (s : State) : Keeps s (Machine.startCeiling p c s) := by
  unfold Machine.startCeiling
  refine (withCtx s { s.ctx with
    waiting := s.ctx.waiting.put p none, line := some (ceilingFrameBytes p c) } fun z hf q => ?_).trans
    (modPlant p _ _)
  show (s.ctx.waiting.put p none).get q = none ∨ (s.ctx.waiting.put p none).get q = some 0
  rw [Tab.get_put]
  split
  · exact .inl rfl
  · exact z hf q

theorem plantWritten (p : Fin 8) (u : Bool) (s : State) : Keeps s (Machine.plantWritten p u s) :=
  modPlant p _ s

/-! ### BEN -/

theorem deadPass (ps : PassStart) (s : State) : Keeps s (Machine.deadPass ps s) := by
  unfold Machine.deadPass; dsimp only
  refine ite (fun _ => ?_) (fun _ => ?_)
  · exact (((withBen s _).trans (takeCeilings _ _)).trans (ofQuiet (Quiet.emit _ _))).trans
      (ofQuiet (Quiet.emit _ _))
  · exact ((withBen s _).trans (ofQuiet (Quiet.emit _ _))).trans (ofQuiet (Quiet.emit _ _))

theorem periodPass (ps : PassStart) (s : State) : Keeps s (Machine.periodPass ps s) := by
  unfold Machine.periodPass; dsimp only
  exact (((withBen s _).trans (takeCeilings _ _)).trans (ofQuiet (Quiet.emit _ _))).trans
    (ofQuiet (Quiet.emit _ _))

theorem takePass (ps : PassStart) (s : State) : Keeps s (Machine.takePass ps s) := by
  unfold Machine.takePass; dsimp only
  refine (withBen s { s.ben with passNumber := s.ben.passNumber + 1 }).trans ?_
  split
  · exact deadPass _ _
  · exact periodPass _ _
  · exact periodPass _ _

theorem takeNextPass (s : State) : Keeps s (Machine.takeNextPass s) := by
  unfold Machine.takeNextPass; split
  · exact rfl' s
  · exact (withBen s _).trans (takePass _ _)

/-! ### SRX timers -/

theorem busFellSilent (s : State) : Keeps s (Machine.busFellSilent s) :=
  (((withSrx s _).trans (reportJudgements _ _)).trans (beginSilent _)).trans (ofQuiet (Quiet.emit _ _))

theorem busDeclaredDead (s : State) : Keeps s (Machine.busDeclaredDead s) :=
  ((withSrx s _).trans (ofQuiet (Quiet.emit _ _))).trans (ofQuiet (Quiet.emit _ _))

/-! ### Modes -/

/-- With an empty active set any mode will do. -/
theorem emptied (s t : State) (q : Quiet s t) (x : Sst) (h : ∀ l, t.rsc.active.get l = none) :
    Keeps s { t with sst := x } :=
  { ofQuiet q with active := fun _ _ l => h l }

/-- A change of mode that is followed, before anything reads it, by an operation that empties the active set. -/
structure KeepsButActive (s t : State) : Prop where
  fifo : s.hlc.FifoOk → t.hlc.FifoOk
  slots : s.hlc.SlotsOk → t.hlc.SlotsOk
  zero : s.ctx.ZeroOk → t.ctx.ZeroOk
  grant : s.bss.GrantOk → t.bss.GrantOk
  crank : s.gsd.CrankOk → t.gsd.CrankOk
  restore : s.fdc.RestoreOk → t.fdc.RestoreOk

theorem forget {s t : State} (h : Keeps s t) : KeepsButActive s t :=
  ⟨h.fifo, h.slots, h.zero, h.grant, h.crank, h.restore⟩

theorem KeepsButActive.trans {s t u : State} (h : KeepsButActive s t) (k : KeepsButActive t u) :
    KeepsButActive s u :=
  ⟨k.fifo ∘ h.fifo, k.slots ∘ h.slots, k.zero ∘ h.zero, k.grant ∘ h.grant, k.crank ∘ h.crank,
    k.restore ∘ h.restore⟩

theorem KeepsButActive.then {s t u : State} (h : KeepsButActive s t) (k : Keeps t u)
    (a : ActiveOk t.sst.mode t.rsc.active) : Keeps s u :=
  { h.trans (forget k) with active := fun _ => k.active a }

theorem changeMode (m : Mode) (c : ModeCause) (s : State) :
    KeepsButActive s (Machine.changeMode m c s) := by
  have h : KeepsButActive s { s with sst.mode := m } := ⟨id, id, id, id, id, id⟩
  exact h.trans (forget (ofQuiet (Quiet.notify _ _ _ _)))

theorem changeMode_mode (m : Mode) (c : ModeCause) (s : State) :
    (Machine.changeMode m c s).sst.mode = m := by simp [Machine.changeMode]

theorem changeMode_active (m : Mode) (c : ModeCause) (s : State) :
    (Machine.changeMode m c s).rsc.active = s.rsc.active := by simp [Machine.changeMode]

theorem clearActive (s : State) : KeepsButActive s (Machine.clearActive s) := ⟨id, id, id, id, id, id⟩

/-- What the blocks abandon at DISENGAGE and SAFE, whatever stood in the active set. -/
theorem abandonWork (s : State) :
    KeepsButActive s (Machine.abandonWork s) ∧
      ActiveOk (Machine.abandonWork s).sst.mode (Machine.abandonWork s).rsc.active := by
  have a : ActiveOk (Machine.clearActive s).sst.mode (Machine.clearActive s).rsc.active :=
    fun _ l => Tab.get_const _ l
  have k : Keeps (Machine.clearActive s) (Machine.abandonWork s) := by
    unfold Machine.abandonWork
    refine Keeps.trans ?_ (endSilent _)
    have q1 : Quiet (Machine.clearActive s) (idleHoldOffs (Machine.clearActive s)) :=
      Quiet.withRows _ _
    exact ofQuiet ((((q1.trans (Quiet.chuAbandon _)).trans (Quiet.gsdAbandon _)).trans
      (Quiet.fdcAbandon _)).trans (Quiet.abortProgram _))
  exact ⟨(clearActive s).trans (forget k), k.active a⟩

theorem startScan (s : State) : Keeps s (Machine.startScan s) := withSst s _ rfl

theorem disengageRun (s : State) : Keeps s (Machine.disengageRun s) := by
  have k := abandonWork (Machine.changeMode .check .disengage s)
  exact KeepsButActive.then ((changeMode _ _ s).trans k.1)
    ((ofQuiet (Quiet.clearForcedZero _)).trans (emptyPending _)) k.2

theorem enterSafe (c : ModeCause) (s : State) : Keeps s (Machine.enterSafe c s) := by
  unfold Machine.enterSafe; dsimp only
  let s1 := Machine.changeMode .safe c s
  have h1 : KeepsButActive s1 { s1 with sst.scan := none, rsc.auto := false } := ⟨id, id, id, id, id, id⟩
  have k := abandonWork { s1 with sst.scan := none, rsc.auto := false }
  exact KeepsButActive.then (((changeMode _ _ s).trans h1).trans k.1)
    ((ofQuiet (Quiet.clearForcedZero _)).trans (beginFault _)) k.2

theorem ctxRestart (s : State) : Keeps s (Machine.ctxRestart s) :=
  ((endSilent s).trans (ofQuiet (Quiet.clearForcedZero _))).trans
    (withCtx _ { Ctx.initial with
      plants := (Machine.clearForcedZero (Machine.endSilent s)).ctx.plants
      line := (Machine.clearForcedZero (Machine.endSilent s)).ctx.line } fun _ hf => nomatch hf)

theorem bssRestart (s : State) : Keeps s (Machine.bssRestart s) :=
  (ofQuiet (Quiet.abortProgram s)).trans
    (ofQuiet (Quiet.noHolder (Machine.abortProgram s) Bss.initial))

theorem benRestart (s : State) : Keeps s (Machine.benRestart s) := withBen s _

theorem restartPart (s : State) : Keeps s (Machine.restartPart s) := by
  unfold Machine.restartPart; dsimp only
  let s1 := Machine.changeMode .setup .restart s
  let s2 : State := { s1 with
    sst.committed := none, sst.scan := none, sst.settingsFault := false
    srx := Srx.initial
    rsc := Rsc.initial }
  have h1 : KeepsButActive s1 s2 := ⟨id, id, id, id, id, id⟩
  refine KeepsButActive.then ((changeMode _ _ s).trans h1) (?_ : Keeps s2 _)
    (fun _ l => Tab.get_const _ l)
  exact (((((benRestart s2).trans (ofQuiet (Quiet.chuRestart _))).trans
    (ofQuiet (Quiet.gsdAbandon _))).trans (ofQuiet (Quiet.fdcAbandon _))).trans (bssRestart _)).trans
    (ctxRestart _)

theorem benEngage (s : State) : Keeps s (Machine.benEngage s) := withBen s _

theorem ctxEngage (s : State) : Keeps s (Machine.ctxEngage s) :=
  (withCtx s _ fun _ _ q => .inl (Tab.get_const _ q)).trans (beginSilent _)

/-- ENGAGE leads to RUN, where the active set may hold anything. -/
theorem engageRun (s : State) : Keeps s (Machine.engageRun s) := by
  unfold Machine.engageRun
  have a : ActiveOk (Machine.changeMode .run .engage s).sst.mode
      (Machine.changeMode .run .engage s).rsc.active :=
    fun h => absurd (changeMode_mode _ _ s) h
  refine KeepsButActive.then (changeMode .run .engage s) ?_ a
  exact (((((benEngage _).trans (ctxEngage _)).trans (ofQuiet (Quiet.gsdEngage _))).trans
    (ofQuiet (Quiet.fdcEvent _ _ (Quiet.forAll 16 _ Quiet.mapFeeder _)))).trans
    (ofQuiet (Quiet.emit _ _)))

/-- COMMIT is taken in SETUP, where the active set is empty. -/
theorem commitImage (check : Word) (s : State) (h : s.sst.mode = .setup) :
    Keeps s (Machine.commitImage check s) := by
  have k := changeMode .check .commit { s with sst.committed := some check }
  have k' : KeepsButActive s (Machine.commitImage check s) :=
    (forget (withSst s { s.sst with committed := some check } rfl)).trans (k.trans (forget (startScan _)))
  refine { k' with active := fun a _ l => ?_ }
  show (Machine.changeMode .check .commit { s with sst.committed := some check }).rsc.active.get l = none
  rw [changeMode_active]
  exact a (by rw [h]; decide) l

/-! ### Settings and the scan -/

theorem modCond (c : Fin 24) (f : CondRow → CondRow) (s : State) : Keeps s (Machine.modCond c f s) :=
  ofQuiet (Quiet.modCond c f s)

theorem modeWritten (c : Fin 24) (h b : Bool) (s : State) : Keeps s (Machine.modeWritten c h b s) := by
  unfold Machine.modeWritten; dsimp only
  split
  · exact ite (fun _ => modCond _ _ s) (fun _ => (modCond _ _ s).trans (ofQuiet (Quiet.moveLatch _ _ _)))
  · exact ite (fun _ => rfl' s) (fun _ => ofQuiet (Quiet.moveLatch _ _ _))

theorem itemWritten (t : State) (k : ItemName) (later : List ItemName) (s : State) :
    Keeps s (Machine.itemWritten t k later s) := by
  unfold Machine.itemWritten; split
  · exact ite (fun _ => withBen s _) (fun _ => rfl' s)
  · exact ite (fun _ => rfl' s) (fun _ => plantWritten _ _ s)
  · exact ite (fun _ => ofQuiet (Quiet.gsdEvent _ s (Quiet.mapSet _ s))) (fun _ => rfl' s)
  · exact ite (fun _ => ofQuiet (Quiet.fdcEvent _ s (Quiet.mapFeeder _ s))) (fun _ => rfl' s)
  · exact ite (fun _ => modeWritten _ _ _ s)
      (fun _ => ite (fun _ => ofQuiet (Quiet.routeChanged _ _ _ s)) (fun _ => rfl' s))
  · exact rfl' s
  · exact rfl' s

theorem itemsWritten (t : State) (l : List ItemName) (s : State) :
    Keeps s (Machine.itemsWritten t l s) := by
  induction l generalizing s with
  | nil => exact rfl' s
  | cons k rest ih => exact (itemWritten t k rest s).trans (ih _)

theorem takeWrite (items : List RawItem) (copy : Image) (s : State) :
    Keeps s (Machine.takeWrite items copy s) := Keeps.trans (withSst s { s.sst with image := copy } rfl) (itemsWritten _ _ _)

theorem itemTuned (t : State) (k : ItemName) (s : State) : Keeps s (Machine.itemTuned t k s) := by
  unfold Machine.itemTuned; split
  · exact ite (fun _ => ofQuiet (Quiet.emit _ s))
      (fun _ => ite (fun _ => ofQuiet (Quiet.routeChanged _ _ _ s)) (fun _ => rfl' s))
  · exact rfl' s

theorem takeTune (k : ItemName) (v : Int) (s : State) : Keeps s (Machine.takeTune k v s) :=
  Keeps.trans (withSst s { s.sst with
    image := s.sst.image.put k v, committed := some (checkOf (s.sst.image.put k v)) } rfl) (startScan _)

theorem readScanItem (s : State) : Keeps s (Machine.readScanItem s) := by
  unfold Machine.readScanItem; split
  · exact rfl' s
  · split
    · exact rfl' s
    · exact (advanceTo _ s).trans (withSst _ _ rfl)

theorem setFaultLatch (l : Latch) (s : State) : Keeps s (Machine.setFaultLatch l s) :=
  ite (fun _ => rfl' _)
    (fun _ => Keeps.trans (withRsc s { s.rsc with faultLatch := l } rfl) (ofQuiet (Quiet.notify _ _ _ _)))

theorem scanMismatch (s : State) : Keeps s (Machine.scanMismatch s) := by
  have key : ∀ t, Keeps s t → Keeps s (Machine.setFaultLatch t.rsc.faultLatch.onTrue t) :=
    fun t h => h.trans (setFaultLatch _ t)
  unfold Machine.scanMismatch
  exact key _ (Keeps.trans (withSst s { s.sst with settingsFault := true } rfl)
    (enterSafe .scanMismatch _))

theorem completeScan (s : State) : Keeps s (Machine.completeScan s) := by
  unfold Machine.completeScan; split
  · exact rfl' s
  · dsimp only
    exact (advanceTo _ s).trans (ite (fun _ => startScan _) (fun _ => scanMismatch _))

end Keeps

end Sys2Proof.Machine
end

