-- ==== Sys2Proof/Tests/Slice0.lean ====
section
/-!
SUPPORT. Tests on small states: the checks of WellFormed, the CRCs, the worked figures of the manual, one or two
runs of each command, and for each obligation with hypotheses a state and operands that meet them.
-/
open Sys2Proof Sys2Proof.Machine

namespace Sys2Proof.Tests

set_option Elab.async false

/-! ### Helpers -/

/-- The command answers a next state that `p` accepts. -/
def gives (c : Instr) (s : State) (p : State → Bool) : Bool :=
  match exec c s with
  | .next t => p t
  | _ => false

/-- RESET_N is high, no hand-over waits and no frame is held. -/
def ready (s : State) : Bool := !s.resetLow && s.handovers.isEmpty && s.hlc.slots.isEmpty

theorem calm_of_ready {s : State} (h : ready s = true) : s.calm := by
  simp [ready] at h
  exact ⟨h.1.1, h.1.2⟩

theorem takes_of_ready {s : State} (h : ready s = true) (k t : Byte) (b : List Byte) : s.takes k t b :=
  ⟨calm_of_ready h, .inl (by simp [ready] at h; exact h.2)⟩

/-- The reply that waits. -/
def replyIs (k t : Byte) (b : List Byte) (s : State) : Bool := s.hlc.reply = some ⟨k, t, b⟩

/-- The status of the reply that waits. -/
def statusIs (st : Byte) (s : State) : Bool := (s.hlc.reply.bind fun r => r.body.head?) = some st

/-- Items set in the image. -/
def withItems (l : List (ItemName × Int)) (s : State) : State :=
  { s with sst.image := l.foldl (fun m p => m.put p.1 p.2) s.sst.image }

def inMode (m : Mode) (s : State) : State := { s with sst.mode := m }

/-- Two sets, a plant and three feeders installed; shed list 0 is F1, F2; the merit list is G1, G2. -/
def site : State := withItems
  [(.gen 0 0, 1), (.gen 0 3, 1), (.gen 1 0, 1), (.gen 1 3, 1), (.plant 0 0, 1), (.feeder 0 0, 1), (.feeder 1 0, 1),
    (.feeder 2 0, 1), (.feeder 2 1, 1), (.shed 0 0, 2), (.shed 0 1, 1), (.shed 0 2, 2), (.merit 0, 2),
    (.merit 1, 1), (.merit 2, 2)] State.reset

def setIs (g : Fin 6) (st : SetState) (s : State) : State := modSet g (fun r => { r with state := st }) s
def feederIs (f : Fin 16) (st : FeederState) (s : State) : State :=
  modFeeder f (fun r => { r with state := st }) s

/-- RUN, with min_run 5 s: G1 ONLINE for 5 s and G2 in STANDBY; F1 CLOSED, F2 OPEN_SHED with 300 kW, F3 CLOSED and essential; AUTO on. -/
def live : State :=
  let s := inMode .run (withItems [(.sys 32, 5)] { site with rsc.auto := true, fdc.queue := [1], tick := 5000 })
  let s := modSet 0 (fun r => { r with
    state := .online, running := true, breaker := true, ready := true, minRunMet := true,
    onlineSince := some 0, onlineMs := 5000 }) s
  let s := modSet 1 (fun r => { r with state := .standby, ready := true }) s
  let s := modFeeder 0 (fun r => { r with state := .closed, breaker := true }) s
  let s := modFeeder 1 (fun r => { r with state := .openShed, preShed := some 300 }) s
  modFeeder 2 (fun r => { r with state := .closed, breaker := true }) s

/-- The live state with chain 0 a SHED chain of count 2 bound to C3. -/
def bound : State := { live with
  chains := live.chains.put 0 ⟨some 3, .shed, some 0, 0, 2, .single, none, none, 4⟩ }

def chainIs (n : Fin 6) (c : Chain) (s : State) : State := { s with chains := s.chains.put n c }

/-- Pass record with headroom `h` at 50,000 mHz, kind PERIOD. -/
def passed (h : Int) (s : State) : State :=
  { s with ben.record := { PassRecord.empty with kind := .period, f := some 50000, h := some h } }

/-- An entry stands at level 7. -/
def atSeven (s : State) : State := { s with rsc.active := s.rsc.active.put 6 (some ⟨0, .blackStart, 0⟩) }

def bodyOf (n : Nat) : List Byte := List.replicate n 0

/-! ### WellFormed: an ill-formed term for each check -/

theorem test_body_of_241_is_refused :
    [Instr.identify 0 (bodyOf 241), .read 0 (bodyOf 241), .status 0 (bodyOf 241), .pass 0 (bodyOf 241),
      .write 0 (bodyOf 241), .commit 0 (bodyOf 241), .tune 0 (bodyOf 241), .engage 0 (bodyOf 241),
      .disengage 0 (bodyOf 241), .restart 0 (bodyOf 241), .safe 0 (bodyOf 241), .auto 0 (bodyOf 241),
      .force 0 (bodyOf 241), .clear 0 (bodyOf 241), .ack 0 (bodyOf 241), .bind 0 (bodyOf 241),
      .unbind 0 (bodyOf 241), .step 0 (bodyOf 241), .genset 0 (bodyOf 241), .runtime 0 (bodyOf 241),
      .feeder 0 (bodyOf 241), .plant 0 (bodyOf 241), .blackstart 0 (bodyOf 241),
      .requestUnknown 0 0 (bodyOf 241)].all (fun i => !i.wellFormed) = true := by decide +kernel

theorem test_body_of_240_is_allowed : (Instr.write 0 (bodyOf 240)).wellFormed = true := by decide +kernel

theorem test_known_kinds_are_not_unknown :
    (Instr.requestUnknown 0x01 0 []).wellFormed = false ∧ (Instr.requestUnknown 0x17 0 []).wellFormed = false ∧
    (Instr.requestUnknown 0x00 0 []).wellFormed = true ∧ (Instr.requestUnknown 0x18 0 []).wellFormed = true := by
  decide +kernel

theorem test_empty_arrivals_are_refused :
    (Instr.hostFrameReceived []).wellFormed = false ∧ (Instr.sampleFrameReceived []).wellFormed = false ∧
    (Instr.powerFrame []).wellFormed = false ∧ (Instr.busRecord []).wellFormed = false := by decide +kernel

theorem test_sample_rows_carry_their_own_kinds :
    (Instr.powerFrame (sampleBytes 1 0 0 0)).wellFormed = false ∧
    (Instr.powerFrame (sampleBytes 2 0 0 0)).wellFormed = false ∧
    (Instr.busRecord (sampleBytes 3 1 0 0)).wellFormed = false ∧
    (Instr.powerFrame (sampleBytes 3 1 0 0)).wellFormed = true ∧
    (Instr.busRecord (sampleBytes 1 0 0 0)).wellFormed = true := by decide +kernel

/-! ### CRCs and figures the manual works out -/

/-- The characters "123456789", for which the three CRCs have known values. -/
def nine : List Byte := [0x31, 0x32, 0x33, 0x34, 0x35, 0x36, 0x37, 0x38, 0x39]

theorem test_crcs_of_the_nine_digits :
    crc16 nine = 0x29B1 ∧ crc8 nine ^^^ 0xFF = 0xDF ∧ crc32Final (crc32Run crc32Init nine) = 0xFC891918 := by
  decide +kernel

theorem test_no_row_gives_bits : ∀ n w : Nat, decodeTableWord n w = none := fun _ _ => rfl

/-! ### Steps, time and cascades -/

theorem test_base_states_are_ready :
    ready State.reset = true ∧ ready site = true ∧ ready live = true ∧ ready bound = true := by decide +kernel

/-- A state in which nothing is ready and no command waits. -/
def still : State := { site with hlc.notices := [] }

/-- EmptyQueueLetsTimePass: RESET_N low; a hand-over waits; an event is ready; none is; what waits and what is due is
ready, and a timer a millisecond before its due tick is not. -/
theorem witness_EmptyQueueLetsTimePass :
    ({ still with resetLow := true } : State).pending = [] ∧
    ({ still with handovers := [.examine] } : State).handovers ≠ [] ∧
    (readyEvents State.reset).head? = some .noticeSend ∧ ready State.reset = true ∧
    readyEvents still = [] ∧ ready still = true ∧
    (match step still with | .next t => decide (t.tick = 1) | _ => false) = true ∧
    (match step (modSet 0 (fun r => { r with running := true, accumulator := 999 }) still) with
      | .next t => (t.setRec 0).runSeconds = 1 && (t.setRec 0).accumulator = 0 && (t.setRec 0).revision = 1
      | _ => false) = true ∧
    (let s : State := setIs 0 .stopping (modSet 0 (fun r => { r with timer := some 7 }) { still with
       tick := 7, srx.stage := some (sampleBytes 3 1 0 0), hlc.slots := [⟨0x17, 1, [0]⟩, ⟨0x02, 2, []⟩]
       hlc.reply := some ⟨0x81, 0, [0]⟩, bss.settleTimer := some 8 })
     readyEvents s = [.powerFrame (sampleBytes 3 1 0 0), .replySend, .status 1 [0], .stopTimerExpiry 0] ∧
      isReady s (.stopTimerExpiry 0) ∧ ¬isReady s .settleTimerExpiry ∧
      isReady { s with tick := 8 } .settleTimerExpiry) := by
  refine ⟨by decide +kernel, by decide +kernel, by decide +kernel, by decide +kernel, by decide +kernel,
    by decide +kernel, by decide +kernel, by decide +kernel, by decide +kernel, ⟨by decide +kernel, 7, by decide +kernel⟩,
    fun ⟨d, h, due⟩ => ?_, 8, by decide +kernel⟩
  cases h
  exact absurd due (by decide +kernel)

/-- R196: CHU's raise of C14 is taken before the NONE that CHU reports to RSC later, at the acceptance which its first
report brought; a hand-over of another pair goes in front. -/
theorem test_handovers_of_one_sender_keep_their_order :
    queueUp [.complete .chu 3 .none] [.raise 14 0, .bssSettled] = [.raise 14 0, .complete .chu 3 .none, .bssSettled] ∧
    queueUp [.startResponse 3 .startNext] [.raise 14 0] = [.startResponse 3 .startNext, .raise 14 0] ∧
    (let s : State := withItems [(.cond 3 0, 1)] (modCond 3 (fun r => { r with flag := true })
       { live with rsc.active := (Tab.const 7 none).put 1 (some ⟨2, .chains, 4000⟩) })
     let one := deliverNext { s with handovers := [.complete .chu 2 .done, .raise 14 0] }
     one.handovers = [.startResponse 3 .chains, .raise 14 0] ∧
      (deliverNext one).handovers = [.raise 14 0, .complete .chu 3 .none]) := by decide +kernel

/-- CascadesTakeHandoversInOrder: none waits; one does. -/
theorem witness_CascadesTakeHandoversInOrder :
    site.handovers = [] ∧
    ({ site with handovers := [.raise 20 0, .examine] } : State).handovers = .raise 20 0 :: [.examine] ∧
    (((cascade { site with handovers := [.raise 20 0, .examine] }).condRow 20).flag = true) := by decide +kernel

theorem test_first_step_from_reset :
    step State.reset = .next { State.reset with pending := [.noticeSend] } := by
  rfl

/-! ### Power -/

theorem test_powerOn_reads_the_straps :
    gives (.powerOn true true) live (fun t => t.lineRate = 3 && decide (t.sst.mode = .setup) &&
      (t.setRec 0).running && t.hlc.notices.length = 1) = true ∧
    gives (.powerOn true false) live (fun t => t.lineRate = 1) = true := by decide +kernel

/-- ResetLowReleasesEveryLine: RESET_N low. -/
theorem witness_ResetLowReleasesEveryLine :
    gives .resetNAsserted (setIs 1 .cranking live)
      (fun t => t.resetLow && !t.startLine 1 && decide (t.srx = Srx.initial)) = true ∧
    (setIs 1 .cranking live).startLine 1 = true ∧ (setIs 5 .cranking live).startLine 5 = false := by decide +kernel

/-- NothingIsTakenWhileResetIsLow: RESET_N low, an input and a request. -/
theorem witness_NothingIsTakenWhileResetIsLow :
    ({ live with resetLow := true } : State).resetLow = true ∧
    gives (.runningFalls 0) { live with resetLow := true }
      (fun t => !(t.setRec 0).running && decide ((t.setRec 0).state = .online)) = true ∧
    gives (.engage 1 []) { live with resetLow := true } (fun t => decide (t.hlc.reply = none)) = true := by
  decide +kernel

/-! ### Invariants: states that meet them, and a step from each -/

/-- The six premises hold in a state with a full FIFO and buffer, forced-zero, a grant, an active entry, a QUEUED and a
CRANKING set and a queued feeder, and the step answers a next state. -/
theorem witness_Invariants :
    let s : State := setIs 0 .cranking (setIs 1 .queued { atSeven live with
      gsd.queue := [1], gsd.permits := 1, ctx.forcedZero := true, ctx.waiting := (Tab.const 8 none).put 0 (some 0)
      bss.program := .first, bss.holder := some 1
      hlc.notices := List.replicate 32 Notice.powerOn, hlc.slots := [⟨1, 0, []⟩, ⟨1, 1, []⟩]
      pending := [.noticeSend] })
    (s.hlc.notices.length ≤ 32 ∧ s.hlc.slots.length ≤ 2) ∧ s.ctx.ZeroOk ∧ s.bss.GrantOk ∧
      ActiveOk s.sst.mode s.rsc.active ∧ s.gsd.CrankOk ∧ s.fdc.RestoreOk ∧
      (match step s with | .next t => decide (t.hlc.notices.length = 31) | _ => false) = true := by
  unfold Ctx.ZeroOk Bss.GrantOk ActiveOk Gsd.CrankOk Fdc.RestoreOk
  decide +kernel

/-- ShedOk holds there too, with a feeder OPEN_SHED in the queue and one out of service, and holds in the live state. -/
theorem witness_RestoreQueueStaysInStep :
    live.ShedOk ∧ (live.feederRec 1).state = .openShed ∧ live.fdc.queue = [1] ∧
    live.feederInstalled 15 = false ∧
    (match step { live with pending := [.feederBreakerRises 1] } with
      | .next t => decide (t.fdc.queue = []) | _ => false) = true := by
  unfold State.ShedOk
  decide +kernel

/-- SettingsChangeOnlyByRequest: a command that is none of the three. -/
theorem witness_SettingsChangeOnlyByRequest :
    gives (.force 1 [20]) site (fun t => decide (t.sst.image = site.sst.image)) = true := by decide +kernel

/-! ### Frames -/

set_option maxRecDepth 20000 in
/-- HostFrameIsHeldAsSent: a body of none and of 240 bytes, the second slot free; a frame in three parts, the first of
one character, the last in time by a tick. -/
theorem witness_HostFrameIsHeldAsSent :
    ready site = true ∧ site.hlc.partialFrame = none ∧
    gives (.hostFrameReceived (hostFrameBytes ⟨0x17, 5, bodyOf 240⟩)) site
      (fun t => decide (t.hlc.slots = [⟨0x17, 5, bodyOf 240⟩])) = true ∧
    gives (.hostFrameReceived (hostFrameBytes ⟨0xFF, 5, []⟩)) { site with hlc.slots := [⟨1, 2, []⟩] }
      (fun t => decide (t.hlc.slots = [⟨1, 2, []⟩, ⟨0xFF, 5, []⟩])) = true ∧
    (let last := bytes16 (crc16 [1, 9, 7, 8])
     [0xA5] ++ [1, 9, 7, 8] ++ last = hostFrameBytes ⟨9, 7, [8]⟩ ∧
      gives (.hostFrameReceived [0xA5]) site (fun t => decide (t.hlc.partialFrame = some ⟨[0xA5], 3⟩)) = true ∧
      gives (.hostFrameReceived [1, 9, 7, 8]) { site with tick := 2, hlc.partialFrame := some ⟨[0xA5], 3⟩ }
        (fun t => decide (t.hlc.partialFrame = some ⟨[0xA5, 1, 9, 7, 8], 5⟩)) = true ∧
      (let s : State := { site with tick := 4, hlc.partialFrame := some ⟨[0xA5, 1, 9, 7, 8], 5⟩ }
       s.remaining 5 ≠ 0 ∧ gives (.hostFrameReceived last) s (fun t =>
         decide (t.hlc.slots = [⟨9, 7, [8]⟩]) && decide (t.hlc.partialFrame = none)) = true)) := by decide +kernel

/-- BrokenHostFramesAreDiscarded: length 241, no SYNC, a wrong CRC, two slots held; a character after 2 ms and after 3;
the timeout of a frame and of none. -/
theorem witness_BrokenHostFramesAreDiscarded :
    gives (.hostFrameReceived [0xA5, 241]) site (fun t => decide (t.hlc = site.hlc)) = true ∧
    gives (.hostFrameReceived [0xA4]) site (fun t => decide (t.hlc = site.hlc)) = true ∧
    ([0, 1, 7] : List Byte).length = 3 + (([0, 1, 7] : List Byte).headD 0).toNat ∧
    [0, 0] ≠ bytes16 (crc16 [0, 1, 7]) ∧
    gives (.hostFrameReceived [0xA5, 0, 1, 7, 0, 0]) site (fun t => decide (t.hlc = site.hlc)) = true ∧
    (let full : State := { site with hlc.slots := [⟨1, 2, []⟩, ⟨1, 3, []⟩] }
     full.hlc.slots.length = 2 ∧
      gives (.hostFrameReceived (hostFrameBytes ⟨1, 4, []⟩)) full (fun t => decide (t.hlc = full.hlc)) = true) ∧
    gives .hostCharacterTimeout site (fun t => t == site) = true ∧
    (let s : State := { site with hlc.partialFrame := some ⟨[0xA5, 3], 1⟩ }
     s.remaining 1 ≠ 0 ∧ 2 + 1 ≠ 6 + (([0xA5, 3] : List Byte).getD 1 0).toNat ∧
      gives .hostCharacterTimeout s (fun t => decide (t.hlc.partialFrame = none) && t.tick = 1) = true ∧
      gives (.hostFrameReceived [0xA5]) s
        (fun t => decide (t.hlc.partialFrame = some ⟨[0xA5, 3, 0xA5], 3⟩)) = true ∧
      ({ s with tick := 1 } : State).remaining 1 = 0 ∧
      gives (.hostFrameReceived [0xA5]) { s with tick := 1 }
        (fun t => decide (t.hlc.partialFrame = some ⟨[0xA5], 4⟩)) = true) := by decide +kernel

/-- BrokenHostFramesAreDiscarded, a character in time: the lengths 240 and 241; the character that ends a frame, with a
free slot, with none, and with a wrong CRC. -/
theorem witness_BrokenHostFramesAreDiscarded_in_time :
    (let s : State := { site with hlc.partialFrame := some ⟨[0xA5], 1⟩ }
     s.remaining 1 ≠ 0 ∧
      gives (.hostFrameReceived [240]) s (fun t => decide (t.hlc.partialFrame = some ⟨[0xA5, 240], 3⟩)) = true ∧
      gives (.hostFrameReceived [241]) s (fun t => t == site) = true) ∧
    (let good := hostFrameBytes ⟨1, 7, []⟩
     let s : State := { site with hlc.partialFrame := some ⟨good.take 5, 1⟩ }
     let last := good.getD 5 0
     good.take 5 ++ [last] = 0xA5 :: [0, 1, 7] ++ bytes16 (crc16 [0, 1, 7]) ∧
      ([0, 1, 7] : List Byte).length = 3 + (([0, 1, 7] : List Byte).headD 0).toNat ∧
      (bytes16 (crc16 [0, 1, 7])).length = 2 ∧ s.hlc.slots.length < 2 ∧
      gives (.hostFrameReceived [last]) s (fun t => t == { site with hlc.slots := [⟨1, 7, []⟩] }) = true ∧
      gives (.hostFrameReceived [last + 1]) s (fun t => t == site) = true ∧
      (let full : State := { s with hlc.slots := [⟨1, 2, []⟩, ⟨1, 3, []⟩] }
       gives (.hostFrameReceived [last]) full (fun t => t == { full with hlc.partialFrame := none }) = true)) := by
  decide +kernel

/-- R179: a frame whose characters come 2 ms apart is held; the idle part drops one that stops. -/
theorem test_host_frame_survives_two_ms_and_no_more :
    (let begun : State := (hostChars [0xA5, 0] site)
     (hostChars ((hostFrameBytes ⟨1, 7, []⟩).drop 2) (advance 2 begun)).hlc.slots = [⟨1, 7, []⟩] ∧
      (hostChars ((hostFrameBytes ⟨1, 7, []⟩).drop 2) (advance 3 begun)).hlc.slots = [] ∧
      readyEvents (advance 2 { begun with hlc.notices := [] }) = [] ∧
      readyEvents (advance 3 { begun with hlc.notices := [] }) = [.hostCharacterTimeout]) := by decide +kernel

/-- SampleFrameReadsBack: the ends of the value ranges, head 31, a wrong CRC, five bytes; kind 0, a bus kind of a unit
head, POWER of head 0; bytes 0 and 1 at the bounds of the framing; a discarded frame that the stage holds, that finds it
empty, and that finds another there. -/
theorem witness_SampleFrameReadsBack :
    sampleBytes 1 0 63 16777215 = [0xA0, 63, 0xFF, 0xFF, 0xFF, crc8 [0xA0, 63, 0xFF, 0xFF, 0xFF]] ∧
    sampleOf (sampleBytes 1 0 63 16777215) = some (.bus .period 63 16777215) ∧
    sampleOf (sampleBytes 3 30 0 (-8388608)) = some (.power 30 0 (-8388608)) ∧
    sampleOf (sampleBytes 3 1 0 8388607) = some (.power 1 0 8388607) ∧
    sampleOf (sampleBytes 3 31 0 0) = none ∧ (0 : Byte) ≠ crc8 [0xA0, 0, 0, 0, 0] ∧
    sampleOf [0xA0, 0, 0, 0, 0, 0] = none ∧ sampleOf [0xA0, 0, 0, 0, 0] = none ∧
    sampleOf (sampleBytes 0 0 0 5) = none ∧ sampleOf (sampleBytes 1 30 0 5) = none ∧
    sampleOf (sampleBytes 2 1 0 5) = none ∧ sampleOf (sampleBytes 3 0 0 5) = none ∧
    (127 : Byte).toNat < 128 ∧ 64 ≤ (64 : Byte).toNat ∧
    sampleOf [0x61, 0, 0, 0, 0, crc8 [0x61, 0, 0, 0, 0]] = none ∧
    sampleOf [0xE1, 64, 0, 0, 0, crc8 [0xE1, 64, 0, 0, 0]] = none ∧
    (let bad := sampleBytes 3 0 0 5
     let held : State := { site with srx.stage := some bad }
     gives (.powerFrame bad) held (fun t => t == site) = true ∧ gives (.busRecord bad) site (fun t => t == site) = true ∧
      (let other : State := { site with srx.stage := some [1] }
       gives (.powerFrame bad) other (fun t => t == other) = true)) := by decide +kernel

/-- SettingsItemReadsBack: the ends of the 32-bit range. -/
theorem witness_SettingsItemReadsBack :
    itemBytes (.cond 23 5) (-2147483648) = [4, 23, 5, 0, 0x80, 0, 0, 0] ∧
    rawItems (itemBytes (.merit 6) 2147483647) = [⟨6, 0, 6, 0, 2147483647⟩] := by decide +kernel

/-! ### Link requests -/

/-- UnfitRequestsAreRefused: kinds 0 and 24, and one byte too many. -/
theorem witness_UnfitRequestsAreRefused :
    gives (.requestUnknown 0 7 [9]) site (replyIs 0x80 7 [1]) = true ∧
    gives (.requestUnknown 0x18 7 []) site (replyIs 0x98 7 [1]) = true ∧
    gives (requestOf ⟨0x17, 7, []⟩) site (replyIs 0x97 7 [2]) = true ∧
    gives (requestOf ⟨0x03, 7, []⟩) site (replyIs 0x83 7 [2]) = true := by decide +kernel

/-- IdentifyAndPassReplies: with a pass taken, and with the empty record. -/
theorem witness_IdentifyAndPassReplies :
    gives (.identify 7 []) site (replyIs 0x81 7 [0, 0x0E, 0x71, 2, 0x78, 1, 6, 8, 16, 24, 6, 4, 0]) = true ∧
    ({ PassRecord.empty with stamp := some 9 } : PassRecord).stamp = some 9 ∧
    gives (.pass 7 []) { site with ben.record := { PassRecord.empty with stamp := some 9 } }
      (fun t => (t.hlc.reply.map fun r => r.body.take 6) = some [0, 0, 0, 0, 0, 9]) = true ∧
    site.ben.record = PassRecord.empty ∧
    gives (.pass 7 []) site (fun t => (t.hlc.reply.map fun r => r.body.length) = some 101) = true := by
  decide +kernel

/-- ReadReturnsRecords: the last number of each class, the number past it, a first above the last, and items. -/
theorem witness_ReadReturnsRecords :
    ([(0, 30), (1, 6), (2, 8), (3, 16), (4, 5), (5, 23), (6, 3)].all fun (p : Byte × Byte) =>
      gives (.read 7 [p.1, p.2, p.2]) site (statusIs 0) &&
      gives (.read 7 [p.1, p.2 + 1, p.2 + 1]) site (replyIs 0x82 7 [4])) = true ∧
    ([1, 2, 3].all fun (c : Byte) => gives (.read 7 [c, 0, 1]) site (replyIs 0x82 7 [4])) = true ∧
    gives (.read 7 [4, 3, 2]) site (replyIs 0x82 7 [4]) = true ∧
    gives (.read 7 [0, 0, 30]) site (fun t => (t.hlc.reply.map fun r => decide (r.body.length ≤ 240)) = some true) = true ∧
    gives (.read 7 [7, 6, 0, 6, 6]) site (replyIs 0x82 7 [0, 7, 6, 1, 6, 0, 6, 0, 0, 0, 0, 0]) = true ∧
    gives (.read 7 [7, 0, 0, 37, 38]) site (replyIs 0x82 7 [4]) = true ∧
    gives (.read 7 [7, 0, 0, 3, 2]) site (replyIs 0x82 7 [4]) = true ∧
    gives (.read 7 [7, 0, 0, 0, 37]) site
      (fun t => (t.hlc.reply.map fun r => decide (r.body.length = 236)) = some true) = true := by decide +kernel

/-- R16, R54, R145: a head, a plant and a shed list as READ gives them. -/
theorem test_read_records :
    headRecord { site with srx.heads := site.srx.heads.put 0 ⟨some 5, 9, 0, .fresh⟩, srx.lastKind := .dead } 0 =
      [0, 0, 0, 0, 0, 0, 0, 5, 0, 0, 0, 9, 0, 0, 0, 0, 0, 0, 0, 0, 0, 0, 0, 2] ∧
    plantRecord site 0 = [0, 0, 0, 1, 0, 0, 3, 0xE8, 0, 0, 0, 1, 0, 0, 0, 1, 0x80, 0, 0, 0, 0, 0, 0, 0] ∧
    shedRecord site 0 = [0, 0, 0, 2, 0, 0, 0, 1, 0, 0, 0, 2] := by decide +kernel

/-- StatusSections: the last section, and the code past it. -/
theorem witness_StatusSections :
    gives (.status 7 [0]) site (fun t => (t.hlc.reply.map fun r => r.body.length) = some 25) = true ∧
    gives (.status 7 [7]) { site with tick := 258 } (replyIs 0x97 7
      [0, 0, 0, 1, 2, 0, 0, 0, 0, 0, 0, 0, 1, 0, 0, 0, 0, 0, 0, 0, 0, 0, 0, 0, 0]) = true ∧
    gives (.status 7 [8]) site (replyIs 0x97 7 [4]) = true := by decide +kernel

/-- RepliesGoBeforeNotices: 31 and 32 notices held; a reply waits; none does. -/
theorem witness_RepliesGoBeforeNotices :
    (let s : State := { site with hlc.notices := List.replicate 31 Notice.powerOn }
     s.hlc.notices.length < 32 ∧ (notify .alarm 1 [] s).hlc.notices.length = 32) ∧
    (let s : State := { site with hlc.notices := List.replicate 32 Notice.powerOn }
     32 ≤ s.hlc.notices.length ∧ (notify .alarm 1 [] s).hlc.lost = true ∧
      (notify .alarm 1 [] s).hlc.notices.length = 32) ∧
    (let s : State := { site with hlc.reply := some ⟨0x81, 0, [0]⟩, hlc.sequence := 255, hlc.lost := true }
     ready s = true ∧ gives .replySend s (fun t => decide (t.hlc.reply = none)) = true ∧
      gives .noticeSend s (fun t => t == s) = true ∧
      gives .noticeSend { s with hlc.reply := none } (fun t => t.hlc.notices.isEmpty && !t.hlc.lost &&
        t.hlc.sequence = 0 && ((t.hlc.line.map fun l => l.take 6) = some [0xA5, 24, 0x47, 0, 1, 255])) = true) := by
  decide +kernel

/-! ### The settings store -/

/-- A WRITE body. -/
def items (l : List (ItemName × Int)) : List Byte := l.flatMap fun p => itemBytes p.1 p.2

/-- WriteTakesAllOrNone: outside SETUP; an item that does not exist, a value out of range and a fixed item, each
behind a good one; two broken lists, the shed list named though the merit list stands first; and all good. -/
theorem witness_WriteTakesAllOrNone :
    gives (.write 7 (items [(.sys 0, 2)])) live (replyIs 0x83 7 [3]) = true ∧ live.sst.mode ≠ .setup ∧
    (let bad := items [(.sys 0, 1)] ++ [0, 1, 0, 0, 0, 0, 0, 0]
     (rawItems bad).map RawItem.name = [some (.sys 0), none] ∧
      gives (.write 7 bad) site (replyIs 0x83 7 [4, 1]) = true) ∧
    gives (.write 7 (items [(.sys 0, 2), (.sys 0, 1)])) site (replyIs 0x83 7 [4, 1]) = true ∧
    gives (.write 7 (items [(.sys 0, 30), (.cond 0 0, 1)])) site (replyIs 0x83 7 [4, 1]) = true ∧
    gives (.write 7 (items [(.merit 3, 1), (.shed 0 3, 1), (.sys 0, 2)])) site (replyIs 0x83 7 [4, 1]) = true ∧
    gives (.write 7 (items [(.sys 0, 30), (.merit 0, 0), (.merit 1, 0), (.merit 2, 0)])) site
      (fun t => replyIs 0x83 7 [0] t && t.sst.image.get (.sys 0) = 30 && t.sst.image.get (.merit 1) = 0) = true ∧
    gives (.write 7 (items [(.sys 0, 30), (.sys 13, 40000), (.sys 3, 60000), (.sys 0, 20)])) site
      (fun t => t.sst.image.get (.sys 0) = 20 && t.sst.image.get (.sys 13) = 57000) = true := by
  decide +kernel

set_option synthInstance.maxHeartbeats 200000 in
set_option synthInstance.maxSize 4000 in
/-- The premises of WriteTakesAllOrNone on items and lists, met together: a writable item and a broken list. -/
theorem witness_WriteTakesAllOrNone_premises :
    writable ⟨0, 0, 0, 0, 2⟩ ∧ ¬writable ⟨0, 0, 0, 0, 1⟩ ∧ touchesList ⟨6, 0, 3, 0, 1⟩ 4 ∧
    ¬listGood (site.sst.image.put (.merit 3) 1) 4 ∧ listGood site.sst.image 4 ∧ listGood site.sst.image 0 := by
  refine ⟨⟨.sys 0, by decide, by decide, by decide⟩, ?_, ⟨.merit 3, by decide, by decide⟩, ?_, ?_, ?_⟩
  · rintro ⟨k, h1, h2, h3⟩
    have e : k = .sys 0 := by
      have : (⟨0, 0, 0, 0, 1⟩ : RawItem).name = some (.sys 0) := by decide
      rw [this] at h1; exact (Option.some.inj h1).symm
    subst e
    exact absurd h3 (by decide)
  · rw [listGood, dif_neg (by decide)]; dsimp only; decide +kernel
  · rw [listGood, dif_neg (by decide)]; dsimp only; decide +kernel
  · rw [listGood, dif_pos (by decide)]; dsimp only; decide +kernel

/-- WriteOfNominalFrequency: another value; both values; a threshold after it, at the ends of its range. -/
theorem witness_WriteOfNominalFrequency :
    ready site = true ∧ site.sst.mode = .setup ∧
    gives (.write 7 (items [(.sys 3, 50001)])) site
      (fun t => statusIs 4 t && decide (t.sst.image = site.sst.image)) = true ∧
    gives (.write 7 (items [(.sys 3, 60000)])) site (fun t => statusIs 0 t && t.sst.image.get (.sys 3) = 60000 &&
      t.sst.image.get (.sys 14) = 58560 && t.sst.image.get (.sys 16) = 1000) = true ∧
    gives (.write 7 (items [(.sys 3, 50000)])) (withItems [(.sys 13, 40000)] site)
      (fun t => t.sst.image.get (.sys 13) = 47500) = true ∧
    gives (.write 7 (items [(.sys 3, 60000), (.sys 13, 40000)])) site
      (fun t => t.sst.image.get (.sys 13) = 40000) = true ∧
    gives (.write 7 (items [(.sys 3, 50000), (.sys 17, 70000)])) site
      (fun t => t.sst.image.get (.sys 17) = 70000) = true := by decide +kernel

/-- WrittenItemsReachTheirOwners: a plant named twice, a condition in HOLD and in EDGE, a route to and from NONE. -/
theorem witness_WrittenItemsReachTheirOwners :
    (∃ f', ItemName.plant 0 f' ∈ [ItemName.plant 0 2]) ∧ (∀ f', ItemName.plant 1 f' ∉ [ItemName.plant 0 2]) ∧
    site.condHold 1 = true ∧ site.condHold 2 = false ∧
    gives (.write 7 (items [(.plant 0 1, 500), (.plant 0 2, 0), (.plant 0 1, 600)])) site
      (fun t => (t.plantRow 0).revision = 1) = true ∧
    (let s := modPlant 0 (fun r => { r with inService := false, lastSent := some 5 }) (withItems [(.plant 0 0, 7)] site)
     s.plantInstalled 0 = false ∧ gives (.write 7 (items [(.plant 0 0, 0)])) s
       (fun t => t.plantRow 0 = ⟨true, none, 1⟩) = true) ∧
    changedItems site.sst.image (site.sst.image.put (.sys 0) 30) [.sys 0, .sys 1, .sys 0] = [.sys 0] ∧
    changedItems site.sst.image ((site.sst.image.put (.sys 0) 30).put (.sys 1) 40) [.sys 1, .sys 0] =
      [.sys 1, .sys 0] ∧
    gives (.write 7 (items [(.cond 20 5, 2)])) (modCond 20 (fun r => { r with flag := true }) site)
      (fun t => (t.condRow 20).latch = .active && t.alarmB) = true ∧
    gives (.write 7 (items [(.cond 20 5, 0)]))
      (modCond 20 (fun r => { r with flag := true, latch := .active }) (withItems [(.cond 20 5, 2)] site))
      (fun t => (t.condRow 20).latch = .idle) = true := by
  refine ⟨⟨2, by simp⟩, ?_, ?_⟩
  · intro f' h; simp at h
  · decide +kernel

/-- R61, R172: EDGE to HOLD clears the flag and moves the latch; HOLD written over a stored code that read as HOLD leaves
the flag. -/
theorem test_write_of_mode_clears_the_flag_from_edge_alone :
    (let raised := modCond 2 (fun r => { r with flag := true, latch := .active }) (withItems [(.cond 2 5, 1)] site)
     gives (.write 7 (items [(.cond 2 2, 1)])) raised
        (fun t => !(t.condRow 2).flag && (t.condRow 2).latch = .clearedUnacked) = true) ∧
    (let s := modCond 1 (fun r => { r with flag := true }) (withItems [(.cond 1 2, 7)] site)
     s.condHold 1 = true ∧
      gives (.write 7 (items [(.cond 1 2, 1)])) s (fun t => (t.condRow 1).flag && statusIs 0 t) = true) := by
  decide +kernel

/-- CommitTable: outside SETUP; an item out of range with every one before it in range; another check; the check. -/
theorem witness_CommitTable :
    gives (.commit 7 [0, 0, 0, 0]) live (replyIs 0x84 7 [3]) = true ∧
    checkOrder = [.sys 0] ++ .sys 1 :: checkOrder.drop 2 ∧
    gives (.commit 7 [0, 0, 0, 0]) (withItems [(.sys 1, 19), (.merit 0, 9)] site)
      (replyIs 0x84 7 [4, 0, 0, 1]) = true := by decide +kernel

/-- Four bytes spell any word. -/
theorem word32_of_bytes (x : Word) :
    word32 (x.extractLsb' 24 8) (x.extractLsb' 16 8) (x.extractLsb' 8 8) (x.extractLsb' 0 8) = x := by
  apply BitVec.eq_of_getLsbD_eq
  intro i hi
  simp only [word32, BitVec.getLsbD_append, BitVec.getLsbD_extractLsb']
  by_cases h1 : i < 8
  · have : i < 16 := by omega
    simp [*]
  by_cases h2 : i < 16
  · have e : 8 + (i - 8) = i := by omega
    have : i - 8 < 8 := by omega
    simp [*]
  by_cases h3 : i < 24
  · have e : 16 + (i - 16) = i := by omega
    have : i - 16 < 8 := by omega
    simp [*]
  · have e : 24 + (i - 16 - 8) = i := by omega
    have : ¬ i - 16 < 8 := by omega
    have : i - 16 - 8 < 8 := by omega
    simp [*]

/-- CommitTable: every item in range, with the check itself and with another one. -/
theorem witness_CommitTable_check :
    checkOrder.all (fun k => k.inRange (site.sst.image.get k)) = true ∧
    (∃ b3 b2 b1 b0, checkOf site.sst.image = word32 b3 b2 b1 b0) ∧
    ∃ b3 b2 b1 b0, checkOf site.sst.image ≠ word32 b3 b2 b1 b0 := by
  refine ⟨by decide +kernel, ⟨_, _, _, _, (word32_of_bytes _).symm⟩, ?_⟩
  by_cases h : checkOf site.sst.image = word32 0 0 0 0
  · exact ⟨0, 0, 0, 1, fun k => absurd (h.symm.trans k) (by decide)⟩
  · exact ⟨0, 0, 0, 0, h⟩

/-- TuneTable: no such item; outside CHECK and RUN; not tunable; out of range; in range; an alarm route. -/
theorem witness_TuneTable :
    gives (.tune 7 [0, 0, 38, 0, 0, 0, 0, 0]) site (replyIs 0x89 7 [4]) = true ∧
    gives (.tune 7 (itemBytes (.sys 5) 0)) site (replyIs 0x89 7 [3]) = true ∧
    gives (.tune 7 (itemBytes (.cond 0 0) 1)) live (replyIs 0x89 7 [5]) = true ∧
    gives (.tune 7 (itemBytes (.sys 5) 5001)) live (replyIs 0x89 7 [4]) = true ∧
    gives (.tune 7 (itemBytes (.sys 5) 5000)) live (fun t => statusIs 0 t && t.sst.image.get (.sys 5) = 5000 &&
      t.sst.scan.isSome) = true ∧
    gives (.tune 7 (itemBytes (.cond 20 5) 1)) (modCond 20 (fun r => { r with flag := true }) live)
      (fun t => (t.condRow 20).latch = .active && t.alarmA) = true := by decide +kernel

/-- EngageStartsRun: outside CHECK; in CHECK, with and without BUS_SILENT, every premise met. -/
theorem witness_EngageStartsRun :
    gives (.engage 7 []) site (replyIs 0x85 7 [3]) = true ∧
    (let s := modSet 0 (fun r => { r with ready := true }) (inMode .check site)
     ready s = true ∧ s.gsd.CrankOk ∧ s.fdc.RestoreOk ∧
      (∀ g, (s.setRec g).origin = none ∧ (s.setRec g).stopOwner = none) ∧ s.bss.program = .idle ∧
      gives (.engage 7 []) s (fun t => t.sst.mode = .run && replyIs 0x85 7 [0] t &&
        (t.setRec 0).state = .standby && t.ben.aPrev = 1000 && t.ctx.refreshCount = 49) = true ∧
      gives (.engage 7 []) { s with srx.busSilent := true } (fun t => t.ctx.silent = some ⟨.hold, 20⟩) = true) := by
  unfold Gsd.CrankOk Fdc.RestoreOk
  decide +kernel

/-- LeavingRunAbandonsWork: DISENGAGE outside RUN and in RUN with a step in flight and the program running; SAFE in
SAFE and in RUN. -/
theorem witness_LeavingRunAbandonsWork :
    gives (.disengage 7 []) site (replyIs 0x86 7 [3]) = true ∧
    gives (.safe 7 []) (inMode .safe site) (replyIs 0x88 7 [0]) = true ∧
    (let s := chainIs 0 ⟨some 3, .start, none, 0, 0, .single, none, some ⟨none, [.set 1], false⟩, 4⟩
      { live with bss.program := .first, bss.holder := some 1 }
     ready s = true ∧ s.sst.mode = .run ∧
      gives (.disengage 7 []) s (fun t => t.sst.mode = .check && (t.chain 0).flight = none &&
        (t.chain 0).trigger = none && t.bss.program = .idle && t.bss.holder = none && t.fdc.queue = []) = true ∧
      gives (.safe 7 []) s (fun t => t.sst.mode = .safe && !t.rsc.auto &&
        t.ctx.fault = some ⟨.zero, 6000⟩ && t.ctx.waiting.get 0 = some 0) = true) := by decide +kernel

/-- RestartResetsTheBlocks. -/
theorem witness_RestartResetsTheBlocks :
    ready bound = true ∧ gives (.restart 7 []) bound (fun t => t.sst.mode = .setup && replyIs 0x87 7 [0] t &&
      decide (t.sst.image = bound.sst.image) && (t.chain 0).count = 0 && (t.chain 0).list = some 0 &&
      (t.chain 0).revision = 5 && decide (t.srx = Srx.initial)) = true := by decide +kernel

/-- ScanRepeatsUntilMismatch: no scan; the first and the last item; none left; a match; a mismatch. -/
theorem witness_ScanRepeatsUntilMismatch :
    gives .scanItemRead site (fun t => t == site) = true ∧ gives .scanCompletion site (fun t => t == site) = true ∧
    checkOrder[0]? = some (.sys 0) ∧ checkOrder[368]? = some (.merit 6) ∧
    gives .scanItemRead { live with sst.scan := some ⟨5000, 0, crc32Init⟩ }
      (fun t => t.sst.scan = some ⟨5000, 1, crc32Run crc32Init (itemBytes (.sys 0) 10)⟩) = true ∧
    gives .scanItemRead { live with sst.scan := some ⟨5000, 368, 0⟩ }
      (fun t => decide (t.tick = 5997) && (t.sst.scan.map Scan.position) = some 369) = true ∧
    gives .scanItemRead { live with sst.scan := some ⟨5000, 369, 0⟩ } (fun t => t.tick = 5000) = true ∧
    gives .scanCompletion { live with sst.scan := some ⟨5000, 369, 0⟩, sst.committed := some 0xFFFFFFFF }
      (fun t => t.sst.mode = .run && t.sst.scan = some ⟨6000, 0, crc32Init⟩) = true ∧
    gives .scanCompletion { live with sst.scan := some ⟨5000, 369, 0⟩, sst.committed := some 0 }
      (fun t => t.sst.mode = .safe && t.sst.settingsFault && t.alarmA && t.rsc.faultLatch = .active) = true := by
  decide +kernel

/-! ### Conditions, acceptance and alarms -/

/-- AutoForceAndClear: ON, OFF, code 2; conditions 0, 1, 23 and 24; a hold-off running. -/
theorem witness_AutoForceAndClear :
    gives (.auto 7 [1]) site (fun t => t.rsc.auto && statusIs 0 t) = true ∧
    gives (.auto 7 [0]) live (fun t => !t.rsc.auto && statusIs 0 t) = true ∧
    gives (.auto 7 [2]) site (replyIs 0x8A 7 [4]) = true ∧
    gives (.force 7 [0]) site (replyIs 0x8B 7 [4]) = true ∧ gives (.force 7 [24]) site (replyIs 0x8B 7 [4]) = true ∧
    gives (.force 7 [1]) (modCond 1 (fun r => { r with holdOff := some 9 }) site) (replyIs 0x8B 7 [8]) = true ∧
    gives (.force 7 [23]) site (fun t => (t.condRow 23).flag && statusIs 0 t) = true ∧
    gives (.clear 7 [24]) site (replyIs 0x8C 7 [4]) = true ∧
    gives (.clear 7 [0]) (modCond 0 (fun r => { r with flag := true }) site)
      (fun t => !(t.condRow 0).flag && statusIs 0 t) = true := by decide +kernel

/-- AckAndLatchTable: numbers 0, 23, 24, 25, 254 and 255; a latch that stays; alarms driven and not. -/
theorem witness_AckAndLatchTable :
    (let s := modCond 23 (fun r => { r with latch := .active })
      (modCond 0 (fun r => { r with latch := .clearedUnacked })
        { withItems [(.cond 23 5, 2), (.cond 0 5, 1)] site with rsc.faultLatch := .active })
     s.alarmA = true ∧ s.alarmB = true ∧
      gives (.ack 7 [0]) s (fun t => (t.condRow 0).latch = .idle && t.alarmB) = true ∧
      gives (.ack 7 [23]) s (fun t => (t.condRow 23).latch = .activeAcked) = true ∧
      gives (.ack 7 [24]) s (fun t => t.rsc.faultLatch = .activeAcked) = true ∧
      gives (.ack 7 [25]) s (replyIs 0x95 7 [4]) = true ∧ gives (.ack 7 [254]) s (replyIs 0x95 7 [4]) = true ∧
      gives (.ack 7 [255]) s (fun t => (t.condRow 0).latch = .idle && (t.condRow 23).latch = .activeAcked &&
        t.rsc.faultLatch = .activeAcked && t.hlc.notices.length = s.hlc.notices.length + 3) = true) ∧
    (site.condRow 5).latch = .idle ∧ site.alarmA = false ∧ site.resetLow = false := by decide +kernel

/-- HoldOffAndCompletion: idle and running timers, flag clear and set; no entry; an entry of C3; C0 with DONE and
with FAILED. -/
theorem witness_HoldOffAndCompletion :
    gives (.holdOffExpiry 3) live (fun t => t == live) = true ∧
    (let s := modCond 3 (fun r => { r with holdOff := some 5100 }) live
     gives (.holdOffExpiry 3) s (fun t => (t.condRow 3).holdOff = none && t.tick = 5100) = true ∧
      gives (.holdOffExpiry 20)
        (modCond 20 (fun r => { r with holdOff := some 5000, flag := true }) (withItems [(.cond 20 0, 1)] live))
        (fun t => !(t.condRow 20).flag) = true) ∧
    complete 3 .done live = live ∧
    (let e : ActiveEntry := ⟨3, .chains, 4000⟩
     let s : State := { live with rsc.active := (Tab.const 7 none).put 3 (some e) }
     s.rsc.active.get 3 = some e ∧ (∀ l, s.rsc.active.get l ≠ none → l = 3) ∧
      ((complete 3 .done s).condRow 3).holdOff = some 6000 ∧ (complete 3 .done s).rsc.active.get 3 = none) ∧
    (let s := modCond 13 (fun r => { r with flag := true }) (atSeven (inMode .check live))
     ((complete 0 .done s).condRow 13).flag = false ∧ (complete 0 .done s).rsc.suppress = false ∧
      ((complete 0 .failed s).condRow 13).flag = true ∧ (complete 0 .failed s).rsc.suppress = true) := by
  decide +kernel

/-- C1, enabled, is presented true. -/
def presented (s : State) : State := Machine.present [(1, true)] (withItems [(.cond 1 0, 1)] s)

/-- PresentedValuesAndRaises: HOLD and EDGE, true and false, an edge and none, hold-off, entry, suppression. -/
theorem witness_PresentedValuesAndRaises :
    ((presentValue 1 true site).condRow 1).flag = true ∧
    ((presentValue 1 false (presentValue 1 true site)).condRow 1).flag = false ∧
    ((presentValue 2 true site).condRow 2).flag = true ∧
    ((presentValue 2 true (modCond 2 (fun r => { r with last := true }) site)).condRow 2).flag = false ∧
    ((presentValue 1 true (modCond 1 (fun r => { r with holdOff := some 1 }) site)).condRow 1).flag = false ∧
    ((presentValue 0 true (atSeven site)).condRow 0).flag = false ∧
    ((presentValue 0 true { site with rsc.suppress := true }).condRow 0).flag = false ∧
    ((presented live).rsc.active.get 5).isSome = true ∧
    ((takeRaise 5 1 site).condRow 5).flag = true ∧
    ((takeRaise 5 1 (modCond 5 (fun r => { r with holdOff := some 1 }) site)).condRow 5).flag = false := by
  decide +kernel

/-- AcceptanceTakesTheBestCandidate: outside RUN; nothing eligible; C1 (level 6) before C3 and C4 (level 4), C3 before
C4; C1 not admitted under an entry at level 7. -/
theorem witness_AcceptanceTakesTheBestCandidate :
    (let f := fun r : CondRow => { r with flag := true }
     let s := modCond 4 f (modCond 3 f live)
     examine (inMode .check s) = inMode .check s ∧ examine live = live ∧
      (s.sst.mode = .run ∧ (s.condRow 3).flag = true ∧ (s.condRow 3).holdOff = none ∧
        s.condEnabled 3 = false) ∧
      (let s := withItems [(.cond 1 0, 1), (.cond 3 0, 1), (.cond 4 0, 1)] s
       ((examine s).rsc.active.get 3 = some ⟨3, .chains, 5000⟩) ∧
        ((examine (modCond 1 f s)).rsc.active.get 5 = some ⟨1, .chains, 5000⟩) ∧
        examine (atSeven s) = atSeven s)) := by decide +kernel

/-! ### Chains -/

/-- BindTable: each bad parameter at its bound; a stale revision; a step in flight; a count given and a list's length. -/
theorem witness_BindTable :
    ([[6, 3, 0, 0, 1, 0, 0], [0, 0, 0, 0, 1, 0, 0], [0, 24, 0, 0, 1, 0, 0], [0, 254, 0, 0, 1, 0, 0],
      [0, 3, 6, 0, 1, 0, 0], [0, 3, 0, 0, 1, 3, 0], [0, 3, 0, 4, 1, 0, 0], [0, 3, 4, 0, 1, 0, 0],
      [0, 3, 5, 0, 1, 0, 101], [0, 3, 0, 0, 17, 0, 0], [0, 3, 2, 0, 1, 1, 0], [0, 3, 0, 1, 0, 0, 0]].all
        fun (b : List Byte) => gives (.bind 7 b) site (replyIs 0x8D 7 [4])) = true ∧
    site.shedList 1 = [] ∧ site.shedList 0 = [0, 1] ∧
    gives (.bind 7 [0, 3, 0, 0, 1, 0, 0, 0, 5]) bound (replyIs 0x8D 7 [7, 0, 4]) = true ∧
    gives (.bind 7 [0, 3, 0, 0, 1, 0, 0]) (chainIs 0 { bound.chain 0 with flight := some ⟨none, [], false⟩ } bound)
      (replyIs 0x8D 7 [9]) = true ∧
    gives (.bind 7 [0, 23, 0, 0, 0, 1, 100, 0, 4]) bound (fun t => replyIs 0x8D 7 [0] t &&
      t.chain 0 = ⟨some 23, .shed, some 0, 0, 2, .burst, none, none, 5⟩) = true ∧
    gives (.bind 7 [5, 255, 5, 9, 0, 2, 100]) site (fun t =>
      t.chain 5 = ⟨none, .capUp, none, 0, 16, .count, some 100, none, 1⟩) = true ∧
    gives (.bind 7 [5, 1, 4, 9, 16, 0, 1]) site (fun t =>
      t.chain 5 = ⟨some 1, .capDown, none, 0, 16, .single, some 1, none, 1⟩) = true := by decide +kernel

/-- UnbindTable: chains 6 and 5; a stale revision; a step in flight; unbound; bound. -/
theorem witness_UnbindTable :
    gives (.unbind 7 [6]) site (replyIs 0x8E 7 [4]) = true ∧ gives (.unbind 7 [5]) site (replyIs 0x8E 7 [0]) = true ∧
    gives (.unbind 7 [0, 0, 5]) bound (replyIs 0x8E 7 [7, 0, 4]) = true ∧
    gives (.unbind 7 [0]) (chainIs 0 { bound.chain 0 with flight := some ⟨none, [], false⟩ } bound)
      (replyIs 0x8E 7 [9]) = true ∧
    gives (.unbind 7 [0, 0, 4]) bound (fun t => replyIs 0x8E 7 [0] t && (t.chain 0).count = 0 &&
      (t.chain 0).trigger = none && (t.chain 0).revision = 5) = true := by decide +kernel

/-- A chain of a kind, a mode and a count, in the live state. -/
def chained (k : ChainKind) (m : ChainMode) (count : Nat) (s : State) : State :=
  chainIs 0 ⟨none, k, if k = .shed then some 0 else none, 0, count, m, some 10, none, 0⟩ s

/-- The values of a STEP reply: units and count. -/
def stepped (units count : Byte) (s : State) : Bool := replyIs 0x8F 7 [0, 0, 0, 0, units, 0, 0, 0, count] s

/-- StepTable: the refusals in order. -/
theorem witness_StepTable_refusals :
    gives (.step 7 [6]) bound (replyIs 0x8F 7 [4]) = true ∧
    gives (.step 7 [5]) (inMode .check bound) (replyIs 0x8F 7 [3]) = true ∧
    gives (.step 7 [0]) (atSeven bound) (replyIs 0x8F 7 [9]) = true ∧
    gives (.step 7 [5]) bound (replyIs 0x8F 7 [8]) = true ∧
    gives (.step 7 [0]) (chainIs 0 { bound.chain 0 with flight := some ⟨none, [], false⟩ } bound)
      (replyIs 0x8F 7 [9]) = true := by decide +kernel

/-- StepTable: COUNT, CAP_DOWN and CAP_UP at the clamp, SHED found and exhausted, RESTORE at the headroom's bound and
below it and with an empty queue, START and STOP found and exhausted. -/
theorem witness_StepTable_steps :
    gives (.step 7 [0]) (chained .stop .count 1 live) (fun t => stepped 1 0 t && (t.condRow 14).flag) = true ∧
    gives (.step 7 [0]) (chained .capDown .single 2 live) (fun t => stepped 1 1 t && t.ctx.capPct = 90) = true ∧
    gives (.step 7 [0]) (chained .capUp .single 2 live) (fun t => stepped 1 1 t && t.ctx.capPct = 100) = true ∧
    gives (.step 7 [0]) bound (fun t => stepped 1 1 t && (t.feederRec 0).state = .tripping &&
      (t.chain 0).cursor = 1) = true ∧
    gives (.step 7 [0]) (feederIs 0 .openExt bound) (fun t => stepped 0 0 t && (t.chain 0).cursor = 2) = true ∧
    (live.fdc.queue = [1] ∧ live.need 1 + live.sys Sys.restoreMargin = 400) ∧
    gives (.step 7 [0]) (passed 400 (chained .restore .single 2 live))
      (fun t => stepped 1 1 t && (t.feederRec 1).state = .closing) = true ∧
    gives (.step 7 [0]) (passed 399 (chained .restore .single 2 live)) (stepped 0 2) = true ∧
    gives (.step 7 [0]) (chained .restore .single 2 { live with fdc.queue := [] }) (stepped 0 0) = true ∧
    live.startSelection = some 1 ∧ live.stopSelection = some 0 ∧ live.onlineCount = 1 ∧
    gives (.step 7 [0]) (chained .start .single 1 live)
      (fun t => stepped 1 0 t && (t.setRec 1).state = .cranking) = true ∧
    gives (.step 7 [0]) (chained .start .single 1 (setIs 1 .lockout live)) (stepped 0 0) = true ∧
    gives (.step 7 [0]) (chained .stop .single 1 live) (stepped 0 0) = true ∧
    gives (.step 7 [0]) (chained .stop .single 1 (setIs 1 .online live))
      (fun t => stepped 1 0 t && (t.setRec 0).state = .stopping) = true := by decide +kernel

/-- BurstScans: fewer found than wanted, as many as wanted; the whole queue and a part of it; both as steps. -/
theorem witness_BurstScans :
    live.shedScan 2 0 [0, 1, 2] = ([0], 3) ∧ live.shedScan 1 0 [0, 1, 2] = ([0], 1) ∧
    live.restoreScan 1 400 [1] = [1] ∧ live.restoreScan 2 399 [1] = [] ∧
    ((takeStep 0 none (chained .shed .burst 2 live)).2 = 1) ∧
    ((takeStep 0 none (passed 400 (chained .restore .burst 2 live))).2 = 1) ∧
    live.shedScan 2 2 ([0, 1].drop 2) = ([], 2) ∧
    gives (.step 7 [0]) (feederIs 0 .openExt (chained .shed .burst 2 live))
      (fun t => stepped 0 0 t && (t.chain 0).cursor = 2) = true ∧
    gives (.step 7 [0]) (chained .restore .burst 2 { live with fdc.queue := [] }) (stepped 0 0) = true ∧
    gives (.step 7 [0]) (passed 399 (chained .restore .burst 2 live)) (stepped 0 2) = true ∧
    gives (.step 7 [0]) (chained .shed .burst 2 live) (stepped 1 1) = true := by decide +kernel

/-- R85, R127: a BURST step whose list names F2 before F1 queues its FEEDER notices in ascending feeder number. -/
theorem test_burst_notices_ascend :
    (let s := feederIs 1 .closed (chained .shed .burst 2
       (withItems [(.shed 0 1, 2), (.shed 0 2, 1)] { live with fdc.queue := [], hlc.notices := [] }))
     s.shedList 0 = [1, 0] ∧ (takeStep 0 none s).1.hlc.notices.map Notice.subject = [1, 2] ∧
      (takeStep 0 none s).2 = 2) := by decide +kernel

/-- StepsCompleteWithTheirLastUnit: no step in flight; a unit of none; one of two; the last; a chain that serves. -/
theorem witness_StepsCompleteWithTheirLastUnit :
    unitEnded 0 (.set 0) true bound = bound ∧
    (let s := chainIs 0 { bound.chain 0 with flight := some ⟨some 3, [.feeder 0, .feeder 1], false⟩ } bound
     unitEnded 0 (.feeder 2) true s = s ∧
      ((unitEnded 0 (.feeder 0) false s).chain 0).flight = some ⟨some 3, [.feeder 1], true⟩ ∧
      (unitEnded 0 (.feeder 1) true (unitEnded 0 (.feeder 0) false s)).handovers = [.complete .chu 3 .failed]) ∧
    ((bound.chain 0).trigger = some 3 ∧ 0 < (bound.chain 0).count ∧ (bound.chain 0).flight = none) ∧
    (chainsResponse 4 bound).handovers = [.complete .chu 4 .none] ∧
    ((chainsResponse 3 bound).chain 0).flight = some ⟨some 3, [.feeder 0], false⟩ := by decide +kernel

/-! ### Generating sets -/

/-- SetMovesFollowTheRules: the same state, and another. -/
theorem witness_SetMovesFollowTheRules :
    (live.setRec 0).state = .online ∧ moveSet 0 .online live = live ∧
    ((moveSet 1 .cranking live).setRec 1).timer = some 15000 ∧ (moveSet 1 .cranking live).gsd.permits = 1 := by
  decide +kernel

/-- QueueStartsAndSelections: an empty queue, no free permit, a free permit; a set in STANDBY in RUN and not; both
policies. -/
theorem witness_QueueStartsAndSelections :
    serveQueue live = live ∧
    (let s := setIs 1 .queued { live with gsd.queue := [1] }
     s.gsd.permits < s.sysNat Sys.crankPermits ∧ s.gsd.CrankOk ∧
      ((serveQueue s).setRec 1).state = .cranking ∧
      (let full : State := { s with gsd.permits := 1 }
       full.sysNat Sys.crankPermits ≤ full.gsd.permits ∧ serveQueue full = full)) ∧
    ((startSet 1 .manual live).setRec 1).state = .cranking ∧
    (startSet 0 (.response 5) live).handovers = [.complete .gsd 5 .failed] ∧
    (deliver (.startResponse 4 .startNext) (setIs 1 .lockout live)).handovers = [.complete .gsd 4 .none] ∧
    ((deliver (.startResponse 4 .startNext) live).setRec 1).origin = some (.response 4) ∧
    live.onlineCount = 1 ∧ live.stopSelection = some 0 ∧
    (deliver (.startResponse 10 .stopNext) live).handovers = [.complete .gsd 10 .none] ∧
    ((deliver (.startResponse 10 .stopNext) (setIs 1 .online live)).setRec 0).stopOwner = some (.response 10) ∧
    live.sys Sys.policy = 0 ∧
    (let s := modSet 1 (fun r => { r with state := .online, minRunMet := true, onlineMs := 5000, runSeconds := 9 })
      (withItems [(.sys 25, 1)] live)
     s.sys Sys.policy = 1 ∧ s.stopSelection = some 1) := by
  unfold Gsd.CrankOk
  decide +kernel

/-- R96, R113: the stop selection reads min_run as the image holds it, and the mark as well (log entry 39). -/
theorem test_stop_selection_reads_min_run :
    live.stopSelection = some 0 ∧ (withItems [(.sys 32, 6)] live).stopSelection = none ∧
    (advance 1000 (withItems [(.sys 32, 6)] live)).stopSelection = some 0 ∧
    (modSet 0 (fun r => { r with minRunMet := false }) (withItems [(.sys 32, 0)] live)).stopSelection = none ∧
    ((advance 1 (modSet 0 (fun r => { r with onlineMs := 3600000 }) live)).setRec 0).onlineMs = 3600000 := by
  decide +kernel

/-- GensetAndRuntimeTables: units 0, 6 and 7 and action 5; not installed; the mode; level 7; a stale revision. -/
theorem witness_GensetAndRuntimeTables_refusals :
    gives (.genset 7 [0, 0]) live (replyIs 0x90 7 [4]) = true ∧ gives (.genset 7 [7, 0]) live (replyIs 0x90 7 [4]) = true ∧
    gives (.genset 7 [1, 5]) live (replyIs 0x90 7 [4]) = true ∧ gives (.genset 7 [6, 4]) live (replyIs 0x90 7 [10]) = true ∧
    gives (.genset 7 [1, 1]) site (replyIs 0x90 7 [3]) = true ∧
    gives (.genset 7 [1, 2]) (atSeven live) (replyIs 0x90 7 [9]) = true ∧
    gives (.genset 7 [1, 2, 0, 1]) site (replyIs 0x90 7 [7, 0, 0]) = true ∧
    gives (.runtime 7 [0, 0, 0, 0, 1]) live (replyIs 0x93 7 [4]) = true ∧
    gives (.runtime 7 [7, 0, 0, 0, 1]) live (replyIs 0x93 7 [4]) = true ∧
    gives (.runtime 7 [6, 0, 0, 0, 1]) live (replyIs 0x93 7 [10]) = true ∧
    gives (.runtime 7 [1, 0, 0, 0, 1]) (atSeven live) (replyIs 0x93 7 [9]) = true ∧
    gives (.runtime 7 [1, 0, 0, 0, 1, 0, 1]) live (replyIs 0x93 7 [7, 0, 0]) = true := by decide +kernel

/-- GensetAndRuntimeTables: each action where it acts, and RUNTIME. -/
theorem witness_GensetAndRuntimeTables :
    gives (.genset 7 [2, 0, 0, 0]) live (fun t => (t.setRec 1).state = .cranking && replyIs 0x90 7 [0] t) = true ∧
    gives (.genset 7 [1, 1]) live (fun t => (t.setRec 0).state = .stopping) = true ∧
    gives (.genset 7 [2, 1]) (setIs 1 .rest live) (fun t => (t.setRec 1).state = .standby) = true ∧
    gives (.genset 7 [2, 1]) (modSet 1 (fun r => { r with state := .rest, outOfService := true }) live)
      (fun t => (t.setRec 1).state = .unavailable) = true ∧
    gives (.genset 7 [2, 2]) live (fun t => (t.setRec 1).state = .unavailable && (t.setRec 1).outOfService) = true ∧
    gives (.genset 7 [2, 3]) (modSet 1 (fun r => { r with outOfService := true, state := .unavailable }) live)
      (fun t => (t.setRec 1).state = .standby && !(t.setRec 1).outOfService) = true ∧
    gives (.genset 7 [2, 4]) (setIs 1 .lockout live) (fun t => (t.setRec 1).state = .standby) = true ∧
    gives (.genset 7 [2, 4]) live (replyIs 0x90 7 [8]) = true ∧
    gives (.runtime 7 [1, 0, 1, 0, 2, 0, 0]) live (fun t => (t.setRec 0).runSeconds = 0x10002 &&
      (t.setRec 0).revision = 1 && replyIs 0x93 7 [0] t) = true := by decide +kernel

/-- SetInputsFollowTheirTables: unchanged; not installed, in UNAVAILABLE and in CRANKING; outside RUN; in RUN, for each of
the six edges; the rows of the mapping. -/
theorem witness_SetInputsFollowTheirTables :
    live.mappedSet 5 = .unavailable ∧ live.mappedSet 0 = .online ∧ live.mappedSet 1 = .standby ∧
    (modSet 0 (fun r => { r with breaker := false }) live).mappedSet 0 = .runUp ∧ site.mappedSet 1 = .unavailable ∧
    gives (.runningRises 0) live (fun t => t == live) = true ∧
    gives (.runningRises 5) live (fun t => (t.setRec 5).running && (t.setRec 5).state = .unavailable) = true ∧
    gives (.readyRises 5) (setIs 5 .cranking { live with gsd.permits := 1 }) (fun t => (t.setRec 5).ready &&
      (t.setRec 5).state = .unavailable && t.gsd.permits = 0) = true ∧
    gives (.readyRises 0) site (fun t => (t.setRec 0).state = .standby) = true ∧
    gives (.runningRises 1) live (fun t => (t.setRec 1).state = .runUp) = true ∧
    gives (.runningFalls 0) live (fun t => (t.setRec 0).state = .standby && (t.condRow 5).flag) = true ∧
    gives (.breakerRises 1) (modSet 1 (fun r => { r with state := .runUp, running := true }) live)
      (fun t => (t.setRec 1).state = .online) = true ∧
    gives (.breakerFalls 0) live (fun t => (t.setRec 0).state = .runUp && (t.condRow 5).flag) = true ∧
    gives (.readyFalls 1) live (fun t => (t.setRec 1).state = .unavailable) = true ∧
    gives (.readyRises 1) (modSet 1 (fun r => { r with state := .unavailable, ready := false }) live)
      (fun t => (t.setRec 1).state = .standby) = true := by decide +kernel

/-- SetTimersExpire: a timer that does not run; each timer in its state, at the attempt limit and below it; a timer and
the min-run timer of a set not installed; the run second of a set that runs and of one that does not. -/
theorem witness_SetTimersExpire :
    (let timed : SetState → Nat → State := fun st n => modSet 1 (fun r => { r with
       state := st, timer := some 5000, attempts := n }) { live with
         gsd.permits := if st = .cranking then 1 else 0 }
     gives (.crankTimerExpiry 1) live (fun t => t == live) = true ∧
      gives (.crankTimerExpiry 1) (timed .cranking 1) (fun t => (t.setRec 1).state = .rest &&
        (t.setRec 1).attempts = 2 && t.gsd.permits = 0) = true ∧
      gives (.crankTimerExpiry 1) (timed .cranking 2) (fun t => (t.setRec 1).state = .lockout &&
        (t.condRow 7).flag) = true ∧
      gives (.syncTimerExpiry 1) (timed .runUp 0) (fun t => (t.setRec 1).state = .stopping &&
        (t.setRec 1).retry) = true ∧
      gives (.restTimerExpiry 1) (timed .rest 1) (fun t => (t.setRec 1).state = .cranking) = true ∧
      gives (.stopTimerExpiry 1) (timed .stopping 0) (fun t => (t.setRec 1).state = .lockout) = true) ∧
    gives (.crankTimerExpiry 5) (modSet 5 (fun r => { r with state := .cranking, timer := some 5000 })
      { live with gsd.permits := 1 }) (fun t => (t.setRec 5).state = .unavailable && t.gsd.permits = 0) = true ∧
    gives (.minRunTimerExpiry 5) (modSet 5 (fun r => { r with state := .online, minRunTimer := some 5001 }) live)
      (fun t => (t.setRec 5).state = .unavailable && (t.setRec 5).minRunTimer = none) = true ∧
    gives (.minRunTimerExpiry 0) live (fun t => t == live) = true ∧
    gives (.minRunTimerExpiry 1) (modSet 1 (fun r => { r with state := .online, minRunTimer := some 5001 }) live)
      (fun t => (t.setRec 1).minRunMet && t.tick = 5001) = true ∧
    gives (.runSecond 1) live (fun t => t == live) = true ∧
    gives (.minRunTimerExpiry 1) (modSet 1 (fun r => { r with state := .online, minRunTimer := some 7501 }) live)
      (fun t => (t.setRec 0).runSeconds = 2 && (t.setRec 0).accumulator = 501 && (t.setRec 1).runSeconds = 0) = true ∧
    gives (.runSecond 0) (modSet 0 (fun r => { r with accumulator := 999 }) live)
      (fun t => (t.setRec 0).runSeconds = 1 && (t.setRec 0).accumulator = 0 && t.tick = 5001) = true := by
  decide +kernel

/-- RestTimerQueuesTheSet: a set in REST whose timer is due, behind a queued set and with the permit in use. -/
theorem witness_RestTimerQueuesTheSet :
    (let s := modSet 1 (fun r => { r with state := .rest, timer := some 5000, attempts := 2, origin := some .manual })
      (setIs 0 .queued { live with gsd.queue := [0], gsd.permits := 1 })
     ready s = true ∧ s.setInstalled 1 = true ∧ (s.setRec 1).state = .rest ∧ (s.setRec 1).timer = some 5000 ∧ s.remaining 5000 = 0 ∧
      gives (.restTimerExpiry 1) s (fun t => t.gsd.queue = [0, 1] && (t.setRec 1).state = .queued &&
        (t.setRec 1).attempts = 2 && (t.setRec 1).origin = some .manual) = true) := by decide +kernel

/-! ### Feeders and plants -/

/-- FeederTable: the moves; trip and close where they begin and where they do not; the refusals; each action. -/
theorem witness_FeederTable :
    moveFeeder 0 .closed live = live ∧ (moveFeeder 0 .openShed live).fdc.queue = [0, 1] ∧
    live.sst.mode = .run ∧ ((tripFeeder 0 .host live).feederRec 0).state = .tripping ∧
    (tripFeeder 1 (.chain 2) live).handovers = [.chainUnitEnd 2 (.feeder 1) false] ∧
    ((closeFeeder 1 .host live).feederRec 1).state = .closing ∧
    (closeFeeder 0 (.response 11) live).handovers = [.complete .fdc 11 .failed] ∧
    (deliver (.startResponse 11 .restoreNext) { live with fdc.queue := [] }).handovers = [.complete .fdc 11 .none] ∧
    (deliver (.startResponse 11 .restoreNext) (passed 399 live)).handovers = [.complete .fdc 11 .none] ∧
    ((deliver (.startResponse 11 .restoreNext) (passed 400 live)).feederRec 1).origin = some (.response 11) ∧
    gives (.feeder 7 [0, 0]) live (replyIs 0x91 7 [4]) = true ∧ gives (.feeder 7 [17, 0]) live (replyIs 0x91 7 [4]) = true ∧
    gives (.feeder 7 [1, 4]) live (replyIs 0x91 7 [4]) = true ∧ gives (.feeder 7 [16, 3]) live (replyIs 0x91 7 [10]) = true ∧
    gives (.feeder 7 [1, 1]) site (replyIs 0x91 7 [3]) = true ∧
    gives (.feeder 7 [1, 0]) (atSeven live) (replyIs 0x91 7 [9]) = true ∧
    gives (.feeder 7 [1, 0, 0, 1]) live (replyIs 0x91 7 [7, 0, 0]) = true ∧
    gives (.feeder 7 [1, 0, 0, 0]) live (fun t => (t.feederRec 0).state = .tripping && replyIs 0x91 7 [0] t) = true ∧
    gives (.feeder 7 [2, 1]) live (fun t => (t.feederRec 1).state = .closing) = true ∧
    gives (.feeder 7 [1, 1]) live (replyIs 0x91 7 [8]) = true ∧
    gives (.feeder 7 [1, 2]) live (fun t => (t.feederRec 0).state = .outOfService) = true ∧
    gives (.feeder 7 [1, 3]) (modFeeder 0 (fun r => { r with state := .outOfService, outOfService := true }) live)
      (fun t => (t.feederRec 0).state = .closed) = true := by decide +kernel

/-- FeederInputsAndTimer: unchanged; not installed, in and outside RUN; outside RUN; in RUN; the timer idle and running, in TRIPPING and
in CLOSING; the settlement owed, not owed, and held up by a moving feeder. -/
theorem witness_FeederInputsAndTimer :
    live.mappedFeeder 15 = .outOfService ∧ live.mappedFeeder 0 = .closed ∧ live.mappedFeeder 1 = .openExt ∧
    ((mapFeeder 1 (modFeeder 1 (fun r => { r with breaker := true }) live)).feederRec 1).preShed = none ∧
    gives (.feederBreakerRises 0) live (fun t => t == live) = true ∧
    gives (.feederBreakerRises 15) live (fun t => (t.feederRec 15).breaker &&
      (t.feederRec 15).state = .outOfService) = true ∧
    gives (.feederBreakerRises 15) site (fun t => (t.feederRec 15).breaker &&
      (t.feederRec 15).state = .outOfService) = true ∧
    gives (.feederBreakerRises 0) (inMode .check (feederIs 0 .openExt site)) (fun t => (t.feederRec 0).state = .closed) = true ∧
    gives (.feederBreakerFalls 0) (modFeeder 0 (fun r => { r with state := .tripping, origin := some (.chain 0) }) bound)
      (fun t => (t.feederRec 0).state = .openShed && t.fdc.queue = [0, 1]) = true ∧
    gives (.feederBreakerFalls 0) live (fun t => (t.feederRec 0).state = .openExt) = true ∧
    gives (.feederBreakerRises 1) live (fun t => (t.feederRec 1).state = .closed && t.fdc.queue = []) = true ∧
    gives (.breakerTimerExpiry 0) live (fun t => t == live) = true ∧
    (let odd := modFeeder 0 (fun r => { r with timer := some 5300 }) live
     gives (.breakerTimerExpiry 0) odd (fun t => t == odd) = true) ∧
    (let s := modFeeder 0 (fun r => { r with state := .closing, timer := some 5300, origin := some .host }) live
     (s.feederRec 0).timer = some 5300 ∧ gives (.breakerTimerExpiry 0) s (fun t =>
       (t.feederRec 0).state = .failed && (t.condRow 8).flag && t.tick = 5300) = true) ∧
    ((tripIfClearing 0 { live with fdc.clearFlag := true }).feederRec 0).state = .tripping ∧
    settleClear live = live ∧
    (settleClear { live with fdc.settleOwed := true }).handovers = [.bssSettled] ∧
    settleClear (feederIs 2 .closing { live with fdc.settleOwed := true }) =
      feederIs 2 .closing { live with fdc.settleOwed := true } := by decide +kernel

/-- R129, R141: a chain's trip that settles the clear is reported to CHU before the settlement is to BSS (log entry 43). -/
theorem test_trip_report_goes_before_the_settlement :
    (feederFallen 0 (modFeeder 0 (fun r => { r with state := .tripping, origin := some (.chain 0) })
      { bound with fdc.clearFlag := true, fdc.settleOwed := true })).handovers =
      [.chainUnitEnd 0 (.feeder 0) true, .bssSettled] := by decide +kernel

/-- PlantTable: units 0, 8 and 9, code 2; not installed; a stale revision; the service it has; the other. -/
theorem witness_PlantTable :
    gives (.plant 7 [0, 0]) site (replyIs 0x92 7 [4]) = true ∧ gives (.plant 7 [9, 0]) site (replyIs 0x92 7 [4]) = true ∧
    gives (.plant 7 [1, 2]) site (replyIs 0x92 7 [4]) = true ∧ gives (.plant 7 [8, 1]) site (replyIs 0x92 7 [10]) = true ∧
    gives (.plant 7 [1, 1, 0, 1]) site (replyIs 0x92 7 [7, 0, 0]) = true ∧
    gives (.plant 7 [1, 0, 0, 0]) site (fun t => (t.plantRow 0).revision = 0 && replyIs 0x92 7 [0] t) = true ∧
    gives (.plant 7 [1, 1]) site (fun t => !(t.plantRow 0).inService && (t.plantRow 0).revision = 1) = true := by
  decide +kernel

/-- CeilingsAndFallbackTicks: nothing pending and something; a pass outside RUN, during a fallback and neither, at the
refresh and at the deadband; each tick with and without a fallback. -/
theorem witness_CeilingsAndFallbackTicks :
    gives .ceilingFrameSend live (fun t => t == live) = true ∧
    gives .ceilingFrameSend { live with ctx.waiting := ((Tab.const 8 none).put 0 (some 258)).put 7 (some 1) }
      (fun t => t.ctx.line = some [0xC1, 1, 2, crc8 [0xC1, 1, 2]] && (t.plantRow 0).lastSent = some 258 &&
        t.ctx.waiting.get 0 = none && t.ctx.waiting.get 7 = some 1) = true ∧
    (let cs := (Tab.const 8 none).put 0 (some 105)
     let sent : State := modPlant 0 (fun r => { r with lastSent := some 100 }) live
     takeCeilings cs (inMode .check sent) = inMode .check sent ∧
      (let held : State := { sent with ctx.silent := some ⟨.hold, 9⟩ }
       (takeCeilings cs held).ctx.waiting.get 0 = none ∧ (takeCeilings cs held).ctx.refreshCount = 1 ∧
        (takeCeilings cs { held with ctx.refreshCount := 49 }).ctx.waiting.get 0 = some 105 ∧
        (takeCeilings cs { held with ctx.refreshCount := 49 }).ctx.refreshCount = 0) ∧
      (takeCeilings cs sent).ctx.waiting.get 0 = some 105 ∧
      (takeCeilings ((Tab.const 8 none).put 0 (some 104)) sent).ctx.waiting.get 0 = none ∧
      (takeCeilings ((Tab.const 8 none).put 0 (some 99)) sent).ctx.waiting.get 0 = some 99 ∧
      (takeCeilings ((Tab.const 8 none).put 0 (some 104)) { sent with ctx.refreshCount := 49 }).ctx.waiting.get 0
        = some 104) ∧
    gives .silentFallbackTick live (fun t => t == live) = true ∧ gives .faultFallbackTick live (fun t => t == live) = true ∧
    gives .silentFallbackTick { live with ctx.silent := some ⟨.full, 5020⟩ }
      (fun t => t.tick = 5020 && t.ctx.waiting.get 0 = some 1000 && t.ctx.silent = some ⟨.full, 5040⟩) = true ∧
    gives .faultFallbackTick { live with ctx.fault := some ⟨.zero, 6000⟩ }
      (fun t => t.tick = 6000 && t.ctx.waiting.get 0 = some 0 && t.ctx.fault = some ⟨.zero, 7000⟩) = true := by
  decide +kernel

/-! ### Black start -/

/-- BlackstartTableAndClearing: codes 0, 1 and 2; the mode; a program that has not failed; RETRY and ABORT; forced-zero
clear and set. -/
theorem witness_BlackstartTableAndClearing :
    (let failed : State := atSeven { live with
       bss.program := .failed, bss.restarts := 4, ctx.forcedZero := true }
     gives (.blackstart 7 [2]) failed (replyIs 0x94 7 [4]) = true ∧
      gives (.blackstart 7 [1]) site (replyIs 0x94 7 [3]) = true ∧
      gives (.blackstart 7 [0]) live (replyIs 0x94 7 [8]) = true ∧
      gives (.blackstart 7 [0]) failed (fun t => t.bss.program = .clearing && t.bss.restarts = 0 &&
        (t.setRec 0).state = .stopping && (t.feederRec 0).state = .tripping && t.fdc.clearFlag) = true ∧
      gives (.blackstart 7 [1]) failed (fun t => t.bss.program = .idle && !t.ctx.forcedZero &&
        t.rsc.active.get 6 = none) = true ∧
      setForcedZero failed = failed) ∧
    live.ctx.forcedZero = false ∧ (setForcedZero live).ctx.waiting.get 0 = some 0 ∧
    ((withdrawSets (setIs 1 .rest live)).setRec 1).state = .standby ∧
    ((withdrawSets (modSet 1 (fun r => { r with state := .rest, outOfService := true }) live)).setRec 1).state =
      .unavailable ∧
    (deliver (.startResponse 0 .blackStart) live).bss.program = .clearing ∧
    (clearBus live).fdc.settleOwed = true ∧ (clearBus live).handovers = [] ∧
    (let open_ : State := feederIs 0 .openExt (feederIs 2 .failed live)
     (clearBus open_).fdc.settleOwed = false ∧ (clearBus open_).handovers = [.bssSettled]) := by decide +kernel

/-- The live state in a program state, with no set ONLINE. -/
def dark (p : Program) : State := setIs 0 .standby { live with bss.program := p }

/-- FirstSetAndGrant: the settlement in CLEARING and elsewhere; an ONLINE set; a candidate in RUN_UP, in STANDBY, none;
the moves of the holder, of another set and of the first set; the timer; the abort, with a holder and without. -/
theorem witness_FirstSetAndGrant :
    clearSettled live = live ∧ (clearSettled (dark .clearing)).bss.holder = some 0 ∧
    (rebuildQueue (feederIs 0 .openExt live)).fdc.queue = [0, 1] ∧
    (selectFirst id live).bss.program = .energizing ∧ (selectFirst id live).bss.firstSet = some 0 ∧
    (selectFirst id (setIs 1 .runUp (dark .first))).bss.holder = some 1 ∧
    ((selectFirst id (dark .first)).setRec 0).state = .cranking ∧
    (selectFirst id (setIs 1 .lockout (setIs 0 .lockout live))).bss.program = .failed ∧
    (let s : State := { dark .first with bss.holder := some 0, bss.tried := (Tab.const 6 false).put 0 true
                                         bss.firstCloseTimer := some 5000 }
     (setMoved 1 .runUp .online s).bss.firstSet = some 1 ∧
      (setMoved 0 .cranking .lockout s).bss.holder = some 1 ∧ setMoved 1 .runUp .stopping s = s ∧
      setMoved 0 .queued .cranking s = s ∧ ready s = true ∧
      (abortProgram s).hlc.notices.tail.map (fun n => (n.subject, n.values)) = [(1, [17, 1]), (1, [0, 0, 13])] ∧
      (abortProgram s).bss.holder = none ∧
      gives .firstCloseTimerExpiry s (fun t => t.bss.holder = some 1) = true) ∧
    gives .firstCloseTimerExpiry live (fun t => t == live) = true ∧
    (let s : State := { live with bss.program := .energizing, bss.firstSet := some 1 }
     (setMoved 1 .online .runUp s).bss.firstSet = some 0 ∧
      (setMoved 1 .online .runUp (setIs 0 .standby s)).bss.program = .first ∧ setMoved 0 .online .runUp s = s) ∧
    setMoved 0 .online .runUp live = live ∧ abortProgram live = live ∧
    (abortProgram { dark .energizing with bss.firstSet := some 1 }).hlc.notices.tail.map (fun n => (n.subject, n.values)) =
      [(2, [0, 0, 13])] := by decide +kernel

/-- EnergizeRestoreAndCollapse: passes in ENERGIZING good and not; each case of phase WAIT, at the headroom's bound and
below it; restarts 2 and 3; the ends of a close and of a start; each timer idle and running. -/
theorem witness_EnergizeRestoreAndCollapse :
    (let e : State := passed 0 { live with bss.program := .energizing, bss.firstSet := some 0 }
     (bssPass e).bss.energizeTimer = some 7000 ∧
      (bssPass { e with bss.energizeTimer := some 1 }).bss.energizeTimer = some 1 ∧
      (bssPass { e with bss.energizeTimer := some 1, ben.record := PassRecord.empty }).bss.energizeTimer = none ∧
      (busDied { e with bss.restarts := 2 }).bss.program = .clearing ∧
      (busDied { e with bss.restarts := 3 }).bss.program = .failed ∧
      gives .energizeTimerExpiry e (fun t => t == e) = true ∧
      gives .energizeTimerExpiry { e with bss.energizeTimer := some 5000 }
        (fun t => t.bss.program = .restoring && t.bss.phase = some .wait) = true ∧
      gives .energizeLimitTimerExpiry e (fun t => t == e) = true ∧
      gives .energizeLimitTimerExpiry { e with bss.limitTimer := some 5001 }
        (fun t => t.bss.program = .clearing && t.bss.restarts = 1 && t.tick = 5001) = true) ∧
    (let w : State := atSeven { live with bss.program := .restoring, bss.phase := some .wait }
     (bssPass (passed 400 w)).bss.awaited = some (.feeder 1) ∧ (bssPass (passed 399 w)).bss.awaited = some (.set 1) ∧
      (bssPass (passed 399 (setIs 1 .lockout w))).bss.program = .idle ∧
      (bssPass (passed 400 { w with fdc.queue := [] })).bss.program = .idle ∧ bssPass w = w ∧
      closeEnded 1 w = w ∧ startEnded 1 true w = w ∧
      (closeEnded 1 { w with bss.phase := some .close, bss.awaited := some (.feeder 1) }).bss.settleTimer = some 8000 ∧
      (startEnded 1 true { w with bss.phase := some .start, bss.awaited := some (.set 1) }).bss.phase = some .wait ∧
      (startEnded 1 false { w with bss.phase := some .start, bss.awaited := some (.set 1) }).bss.program = .idle ∧
      gives .settleTimerExpiry w (fun t => t == w) = true ∧
      gives .settleTimerExpiry { w with bss.phase := some .settle, bss.settleTimer := some 5000 }
        (fun t => t.bss.phase = some .wait && t.bss.settleTimer = none) = true) ∧
    bssPass live = live ∧ busDied live = live := by decide +kernel

/-! ### The sample link -/

/-- PowerFramesByAge: no stamp known; ages 0, 32, 33 and 63; out of the receive stage, and while it holds another frame; a
bus record after another; POWER_ON and RESTART. -/
theorem witness_PowerFramesByAge :
    ready live = true ∧ live.srx.stage = none ∧
    gives (.powerFrame (sampleBytes 3 1 10 (-5))) live (fun t => t == live) = true ∧
    (let s : State := { live with srx.busStamp := some 10 }
     gives (.powerFrame (sampleBytes 3 1 10 (-5))) s (fun t =>
       t.srx.heads.get 1 = ⟨some (-5), 10, 0, .fresh⟩ && t.hlc.notices.length = 2) = true ∧
      gives (.powerFrame (sampleBytes 3 30 42 8388607)) s (fun t => (t.srx.heads.get 30).value = some 8388607) = true ∧
      gives (.powerFrame (sampleBytes 3 1 41 0)) s (fun t => t == s) = true ∧
      gives (.powerFrame (sampleBytes 3 1 11 0)) s (fun t => t == s) = true ∧
      (let held : State := { s with srx.stage := some (sampleBytes 3 1 42 6) }
       gives (.powerFrame (sampleBytes 3 1 42 6)) held (fun t =>
         (t.srx.heads.get 1).value = some 6 && t.srx.stage = none) = true ∧
        gives (.powerFrame (sampleBytes 3 1 41 0)) { s with srx.stage := some (sampleBytes 3 1 41 0) }
          (fun t => t == s) = true ∧
        gives (.powerFrame (sampleBytes 3 2 10 0)) held (fun t => t == held) = true ∧
        gives (.busRecord (sampleBytes 1 0 11 200000)) held (fun t => t == held) = true) ∧
      gives (.busRecord (sampleBytes 1 0 63 200000)) s (fun t => t.srx.busStamp = some 63) = true ∧
      gives (.busRecord (sampleBytes 2 0 0 0)) s (fun t => t.srx.busStamp = some 0) = true ∧
      gives (.powerOn false false) s (fun t => t.srx.busStamp = none) = true ∧
      gives (.restart 7 []) s (fun t => t.srx.busStamp = none) = true) := by decide +kernel

/-- BusRecordsAndSampleTimers: PERIOD and DEAD, the stage empty and holding the frame; both timers idle and running. -/
theorem witness_BusRecordsAndSampleTimers :
    gives (.busRecord (sampleBytes 1 0 9 16777215)) { live with srx.busSilent := true }
      (fun t => (t.srx.heads.get 0).value = some 16777215 && t.srx.silenceTimer = some 5100 &&
        !t.srx.busSilent && t.ben.starts.length = 1) = true ∧
    gives (.busRecord (sampleBytes 2 0 9 0)) { live with srx.stage := some (sampleBytes 2 0 9 0) }
      (fun t => t.srx.deadTimer = some 5500 && t.srx.stage = none && t.srx.lastKind = .dead) = true ∧
    gives .busSilenceTimerExpiry live (fun t => t == live) = true ∧ gives .deadTimerExpiry live (fun t => t == live) = true ∧
    gives .busSilenceTimerExpiry { live with srx.silenceTimer := some 5100 }
      (fun t => t.srx.busSilent && t.ctx.silent = some ⟨.hold, 5120⟩ && (t.condRow 12).flag) = true ∧
    gives .deadTimerExpiry { live with srx.deadTimer := some 5500 }
      (fun t => t.srx.busDead && t.rsc.active.get 6 = none && (t.condRow 0).last) = true ∧
    (let s : State := { inMode .check live with
       srx.busSilent := true, ctx.silent := some ⟨.zero, 5020⟩, hlc.notices := List.replicate 30 Notice.powerOn }
     gives (.busRecord (sampleBytes 1 0 9 200000)) s (fun t => t.hlc.notices.drop 30 =
       [⟨.plant, 5000, 0, [2, 0]⟩, ⟨.unit, 5000, 0, [0, 0]⟩] && !t.hlc.lost) = true ∧
     gives (.busRecord (sampleBytes 1 0 9 200000)) { s with hlc.notices := List.replicate 31 Notice.powerOn } (fun t =>
       t.hlc.notices.length = 32 && t.hlc.lost) = true) ∧
    (let s : State := { withItems [(.sys 22, 2)] live with srx.silenceTimer := some 5100 }
     ((busFellSilent (advanceTo 5100 s)).ctx.waiting.get 0 = some 1000) ∧
     (busFellSilent (advanceTo 5100 { s with ctx.forcedZero := true })).ctx.waiting.get 0 = some 0) ∧
    gives (.sampleFrameReceived [1]) live (fun t => t.srx.stage = some [1]) = true ∧
    gives (.sampleFrameReceived [2]) { live with srx.stage := some [1] } (fun t => t.srx.stage = some [1]) = true := by
  decide +kernel

/-! ### The balance pass -/

/-- A pass start with G1 at 800 kW and P1 at 300 kW, both FRESH. -/
def passStart (kind : BusKind) (value : Nat) : PassStart :=
  ⟨kind, value, 4, ((Tab.const 31 ⟨none, 0, 255, .stale⟩).put 1 ⟨some 800, 4, 0, .fresh⟩).put 7
    ⟨some 300, 4, 0, .fresh⟩⟩

/-- The live state before a pass. -/
def beforePass (kind : BusKind) (value : Nat) : State :=
  { live with ben.starts := [passStart kind value], ben.aPrev := 1000 }

/-- BalancePassOfEachKind: no pass start; DEAD; PERIOD at both ends of the valid range and beyond them. -/
theorem witness_BalancePassOfEachKind :
    gives .balancePass live (fun t => t == live) = true ∧ ready (beforePass .period 200000) = true ∧
    gives .balancePass (beforePass .dead 0) (fun t => t.ben.record.kind = .dead && t.ben.record.f = none &&
      t.ben.passNumber = 1 && t.ben.aPrev = 1000) = true ∧
    ([(142857, 70000, true), (142858, 70000, false), (250000, 40000, false), (250001, 40000, true)].all
      fun (v : Nat × Int × Bool) => gives .balancePass (beforePass .period v.1)
        (fun t => t.ben.record.f = some v.2.1 && t.ben.record.clamped = v.2.2)) = true := by decide +kernel

/-- A pass at 50 Hz: the quantities of R24 to R33 and the ceiling of the one plant. -/
theorem test_balancePass_quantities :
    gives .balancePass (beforePass .period 200000) (fun t =>
      let w := t.ben.record
      w.f = some 50000 && w.g = some 800 && w.p = some 300 && w.rg = some 1000 && w.fg = some 300 &&
        w.h = some 200 && w.r = some 190 && w.aFloor = some 750 && w.aCap = some 1000 &&
        w.aDroop = some 1000 && w.aRamp = some 1010 && w.a = some 750 && w.ceilings.get 0 = some 750 &&
        t.ctx.waiting.get 0 = some 750) = true := by decide +kernel

end Sys2Proof.Tests
end

/-!
SUPPORT. Items in a request's body and in an image, and what a WRITE in SETUP does, said once: the request that reaches
SST, the items refused, and the items whose owners have nothing to do. Last, the WRITE of f_nom (R35, R171, R172).
-/
namespace Sys2Proof.Machine

/-! ### Items in a body (R195) -/

/-- A word is spelled by its four bytes, high byte first (R191). -/
theorem word32_bytes32 (x : Word) :
    word32 (x.extractLsb' 24 8) (x.extractLsb' 16 8) (x.extractLsb' 8 8) (x.extractLsb' 0 8) = x := by
  have high : x.extractLsb' 24 8 ++ x.extractLsb' 16 8 = x.extractLsb' 16 16 :=
    BitVec.extractLsb'_append_extractLsb'_eq_extractLsb' rfl
  have low : x.extractLsb' 8 8 ++ x.extractLsb' 0 8 = x.extractLsb' 0 16 :=
    BitVec.extractLsb'_append_extractLsb'_eq_extractLsb' rfl
  have all : x.extractLsb' 16 16 ++ x.extractLsb' 0 16 = x.extractLsb' 0 32 :=
    BitVec.extractLsb'_append_extractLsb'_eq_extractLsb' rfl
  rw [word32, high, low, all, BitVec.extractLsb'_eq_self]

/-- An item that exists, with a value, as a request carries it. -/
def RawItem.of (k : ItemName) (v : Int) : RawItem := ⟨k.codes.1, k.codes.2.1, k.codes.2.2, 0, v⟩

@[simp] theorem RawItem.of_value (k : ItemName) (v : Int) : (RawItem.of k v).value = v := rfl

@[simp] theorem RawItem.of_name (k : ItemName) (v : Int) : (RawItem.of k v).name = some k := by
  cases k <;> simp [RawItem.of, RawItem.name, ItemName.codes, itemOfCodes]

theorem codes_lt (k : ItemName) : k.codes.1 < 256 ∧ k.codes.2.1 < 256 ∧ k.codes.2.2 < 256 := by
  cases k <;> simp only [ItemName.codes] <;> omega

theorem byteOf_toNat {n : Nat} (h : n < 256) : (byteOf n).toNat = n := by
  rw [byteOf, BitVec.toNat_ofNat, Nat.mod_eq_of_lt h]

theorem sField_toInt {v : Int} (lo : -2147483648 ≤ v) (hi : v ≤ 2147483647) : (sField v).toInt = v :=
  BitVec.toInt_ofInt_eq_self (by decide) lo (by omega)

@[simp] theorem itemBytes_length (k : ItemName) (v : Int) : (itemBytes k v).length = 8 := rfl

/-- The first item of a body is read back as it was written. -/
theorem rawItems_itemBytes_append (k : ItemName) {v : Int} (lo : -2147483648 ≤ v) (hi : v ≤ 2147483647)
    (rest : List Byte) : rawItems (itemBytes k v ++ rest) = RawItem.of k v :: rawItems rest := by
  obtain ⟨table, row, field⟩ := codes_lt k
  simp only [itemBytes, bytes32, List.cons_append, List.nil_append, rawItems, word32_bytes32,
    sField_toInt lo hi, byteOf_toNat table, byteOf_toNat row, byteOf_toNat field]
  rfl

theorem rawItems_itemBytes (k : ItemName) {v : Int} (lo : -2147483648 ≤ v) (hi : v ≤ 2147483647) :
    rawItems (itemBytes k v) = [RawItem.of k v] := by
  rw [← List.append_nil (itemBytes k v), rawItems_itemBytes_append k lo hi []]
  rfl

/-! ### Items in an image -/

/-- A cell of a table of rows, another cell written. -/
theorem get_modify_put_ne {n m : Nat} (t : Tab n (Tab m Int)) {r r' : Fin n} {f f' : Fin m} (v : Int)
    (h : ¬(r = r' ∧ f = f')) : ((t.modify r (·.put f v)).get r').get f' = (t.get r').get f' := by
  by_cases row : r = r'
  · subst row
    rw [Tab.get_modify_self, Tab.get_put_ne _ _ _ _ fun field => h ⟨rfl, field⟩]
  · rw [Tab.get_modify_ne _ _ _ _ row]

@[simp] theorem Image.get_put_self (m : Image) (k : ItemName) (v : Int) : (m.put k v).get k = v := by
  cases k <;> simp [Image.put, Image.get]

theorem Image.get_put_ne (m : Image) {k l : ItemName} (v : Int) (h : k ≠ l) :
    (m.put k v).get l = m.get l := by
  cases k <;> cases l
  case sys.sys | merit.merit => exact Tab.get_put_ne _ _ _ _ (by simpa using h)
  case gen.gen | plant.plant | feeder.feeder | cond.cond | shed.shed =>
    exact get_modify_put_ne _ v (by simpa using h)
  all_goals rfl

theorem Image.get_put (m : Image) (k l : ItemName) (v : Int) :
    (m.put k v).get l = if k = l then v else m.get l := by
  split
  · next same => rw [← same, Image.get_put_self]
  · next other => exact Image.get_put_ne m v other

theorem applyItem_of_ne {k : ItemName} (h : k ≠ .sys Sys.fNom) (m : Image) (v : Int) :
    applyItem m k v = m.put k v := if_neg h

/-- f_nom written to a copy: the four thresholds, itself, and every other item as it was (R35). -/
theorem applyItem_fNom_get (m : Image) (v : Int) (k : ItemName) :
    (applyItem m (.sys Sys.fNom) v).get k =
      if .sys Sys.restoreFMin = k then if v = 60000 then 59760 else 49800
      else if .sys Sys.ofThreshold = k then if v = 60000 then 61800 else 51500
      else if .sys Sys.ufLow = k then if v = 60000 then 58560 else 48800
      else if .sys Sys.ufDeep = k then if v = 60000 then 57000 else 47500
      else if .sys Sys.fNom = k then v
      else m.get k := by
  simp only [applyItem, if_true, Image.get_put]

/-- The columns of R35's table for the two nominal frequencies. -/
theorem applyItem_fNom_table (m : Image) {v : Int} (hv : v = 50000 ∨ v = 60000) :
    let copy := applyItem m (.sys Sys.fNom) v
    copy.get (.sys Sys.fNom) = v ∧
    copy.get (.sys Sys.ufDeep) = (if v = 50000 then 47500 else 57000) ∧
    copy.get (.sys Sys.ufLow) = (if v = 50000 then 48800 else 58560) ∧
    copy.get (.sys Sys.ofThreshold) = (if v = 50000 then 51500 else 61800) ∧
    copy.get (.sys Sys.restoreFMin) = (if v = 50000 then 49800 else 59760) := by
  rcases hv with rfl | rfl <;> refine ⟨?_, ?_, ?_, ?_, ?_⟩ <;> rw [applyItem_fNom_get] <;> rfl

theorem applyItem_fNom_get_other (m : Image) (v : Int) {k : ItemName}
    (hk : k ∉ [.sys Sys.fNom, .sys Sys.ufDeep, .sys Sys.ufLow, .sys Sys.ofThreshold, .sys Sys.restoreFMin]) :
    (applyItem m (.sys Sys.fNom) v).get k = m.get k := by
  simp only [List.mem_cons, List.not_mem_nil, or_false, not_or] at hk
  obtain ⟨nom, deep, low, high, restore⟩ := hk
  rw [applyItem_fNom_get, if_neg (Ne.symm restore), if_neg (Ne.symm high), if_neg (Ne.symm low),
    if_neg (Ne.symm deep), if_neg (Ne.symm nom)]

theorem applyItems_of (m : Image) (k : ItemName) (v : Int) (items : List RawItem) :
    applyItems m (RawItem.of k v :: items) = applyItems (applyItem m k v) items := by
  simp only [applyItems, List.foldl_cons, RawItem.of_name, RawItem.of_value]

@[simp] theorem applyItems_nil (m : Image) : applyItems m [] = m := rfl

/-! ### What a WRITE gives (R171) -/

theorem RawItem.barred_of (k : ItemName) (v : Int) :
    (RawItem.of k v).barred = (k.fixed || !k.inRange v) := by
  simp only [RawItem.barred, RawItem.of_name, RawItem.of_value]

theorem RawItem.touches_of (k : ItemName) (v : Int) (key : Fin 5) :
    (RawItem.of k v).touches key = decide (itemList k = some key) := by
  simp only [RawItem.touches, RawItem.of_name, Option.bind_some]

/-- Items none of which is barred or touches a list are all written. -/
theorem writeImage_ok {items : List RawItem} (m : Image) (good : ∀ r ∈ items, r.barred = false)
    (free : ∀ r ∈ items, ∀ key, r.touches key = false) : writeImage m items = .ok (applyItems m items) := by
  have named : items.findIdx? (fun r => r.name.isNone) = none :=
    List.findIdx?_eq_none_iff.2 fun r hr => by
      have := good r hr
      cases e : r.name <;> simp_all [RawItem.barred]
  have unbarred : items.findIdx? RawItem.barred = none := List.findIdx?_eq_none_iff.2 good
  have untouched : (List.finRange 5).find? (fun key =>
      items.any (fun r => r.touches key) && !listOk (applyItems m items) key) = none :=
    List.find?_eq_none.2 fun key _ => by
      have : items.any (fun r => r.touches key) = false :=
        List.any_eq_false.2 fun r hr => by simp [free r hr key]
      simp [this]
  simp only [writeImage, named, unbarred, untouched]

/-- An item alone that is fixed, or whose value lies outside its range, is refused. -/
theorem writeImage_barred (m : Image) {k : ItemName} {v : Int} (bad : (RawItem.of k v).barred = true) :
    writeImage m [RawItem.of k v] = .error 0 := by
  simp [writeImage, List.findIdx?_cons, bad]

/-! ### Owners that have nothing to do (R172) -/

theorem mem_of_mem_changedItems {old new : Image} {l : List ItemName} {k : ItemName}
    (h : k ∈ changedItems old new l) : k ∈ l := by
  induction l with
  | nil => exact h
  | cons a rest ih =>
    rw [changedItems] at h
    split at h
    · exact List.mem_cons_of_mem _ (ih h)
    · rcases List.mem_cons.1 h with rfl | h
      · exact List.mem_cons_self
      · exact List.mem_cons_of_mem _ (ih h)

/-- Of the SYS items only rocof_window calls for an act of its owner (R22). -/
theorem itemsWritten_sys (t : State) (l : List ItemName) (s : State)
    (h : ∀ k ∈ l, ∃ f, k = .sys f ∧ f ≠ Sys.rocofWindow) : itemsWritten t l s = s := by
  induction l with
  | nil => rfl
  | cons k rest ih =>
    obtain ⟨f, rfl, hf⟩ := h k List.mem_cons_self
    have same : itemWritten t (.sys f) rest s = s := if_neg hf
    rw [itemsWritten, same]
    exact ih fun k hk => h k (List.mem_cons_of_mem _ hk)

theorem takeWrite_sys {items : List RawItem} (copy : Image) (s : State)
    (h : ∀ r ∈ items, ∃ f v, r = RawItem.of (.sys f) v ∧ f ≠ Sys.rocofWindow) :
    takeWrite items copy s = { s with sst.image := copy } := by
  refine itemsWritten_sys s _ _ fun k hk => ?_
  obtain ⟨r, hr, name⟩ := List.mem_filterMap.1 (mem_of_mem_changedItems hk)
  obtain ⟨f, v, rfl, hf⟩ := h r hr
  rw [RawItem.of_name, Option.some.injEq] at name
  exact ⟨f, name.symm, hf⟩

/-! ### WRITE taken in SETUP -/

/-- A frame leaves its slot and a waiting reply begins to go out. -/
theorem sendReply_tail (s : State) :
    sendReply { s with hlc.slots := s.hlc.slots.tail } = s.taken := by
  obtain ⟨_, _, _, _, _, _, _, _, _, _, _, _, ⟨_, _, reply, _, _, _, _⟩, _, _⟩ := s
  cases reply <;> rfl

/-- A WRITE of allowed length is SST's to answer, with the cascade of its act. -/
theorem exec_write_taken {s : State} {tag : Byte} {body : List Byte} (ht : s.takes 0x03 tag body)
    (fits : writeFits body = true) :
    exec (.write tag body) s = .next (cascade (writeAct body (answer 0x03 tag) s.taken)) := by
  obtain ⟨⟨high, _⟩, held⟩ := ht
  show Host.Outcome.next (takeRequest 0x03 tag body (writeFits body) (writeAct body) s) = _
  rw [takeRequest_held high held, fits, serveRequest_fit, sendReply_tail]
  rfl

/-- A WRITE that writeImage refuses is answered RANGE with the index, and nothing else happens. -/
theorem exec_write_error {s : State} {tag : Byte} {body : List Byte} {i : Nat} (ht : s.takes 0x03 tag body)
    (fits : writeFits body = true) (setup : s.sst.mode = .setup)
    (err : writeImage s.sst.image (rawItems body) = .error i) :
    exec (.write tag body) s = .next (s.taken.replied 0x83 tag [4, byteOf i]) := by
  have act : writeAct body (answer 0x03 tag) s.taken = s.taken.replied 0x83 tag [4, byteOf i] := by
    rw [writeAct, if_pos (show s.taken.sst.mode = .setup from setup), show s.taken.sst = s.sst from rfl, err]
    rfl
  have ⟨⟨_, idle⟩, _⟩ := ht
  rw [exec_write_taken ht fits, act]
  exact congrArg _ (drain_nil _ _ idle)

/-- A WRITE of SYS items in their ranges, rocof_window not among them, changes the image alone. -/
theorem exec_write_sys {s : State} {tag : Byte} {body : List Byte} (ht : s.takes 0x03 tag body)
    (fits : writeFits body = true) (setup : s.sst.mode = .setup)
    (items : ∀ r ∈ rawItems body, ∃ f v, r = RawItem.of (.sys f) v ∧ f ≠ Sys.rocofWindow ∧
      (ItemName.sys f).inRange v = true) :
    exec (.write tag body) s =
      .next ({ s.taken with sst.image := applyItems s.sst.image (rawItems body) }.replied 0x83 tag [0]) := by
  have ok : writeImage s.sst.image (rawItems body) = .ok (applyItems s.sst.image (rawItems body)) := by
    refine writeImage_ok _ (fun r hr => ?_) (fun r hr key => ?_)
    · obtain ⟨f, v, rfl, -, inside⟩ := items r hr
      rw [RawItem.barred_of, inside]; rfl
    · obtain ⟨f, v, rfl, -, -⟩ := items r hr
      rw [RawItem.touches_of]; rfl
  have owners := takeWrite_sys (applyItems s.sst.image (rawItems body)) s.taken fun r hr => by
    obtain ⟨f, v, e, hf, -⟩ := items r hr
    exact ⟨f, v, e, hf⟩
  have act : writeAct body (answer 0x03 tag) s.taken =
      { s.taken with sst.image := applyItems s.sst.image (rawItems body) }.replied 0x83 tag [0] := by
    rw [writeAct, if_pos (show s.taken.sst.mode = .setup from setup), show s.taken.sst = s.sst from rfl, ok]
    show answer 0x03 tag .ok [] (takeWrite _ _ s.taken) = _
    rw [owners]
    rfl
  have ⟨⟨_, idle⟩, _⟩ := ht
  rw [exec_write_taken ht fits, act]
  exact congrArg _ (drain_nil _ _ idle)

/-! ### WRITE of f_nom (R35) -/

theorem fNom_inRange (v : Int) : (ItemName.sys Sys.fNom).inRange v = true ↔ v = 50000 ∨ v = 60000 := by
  simp [ItemName.inRange]

/-- A threshold that f_nom sets: not f_nom itself and not rocof_window, tunable (R174), its range 40,000 to 70,000
(R43). -/
theorem threshold_spec : ∀ f ∈ ([13, 14, 15, 17] : List (Fin 38)),
    f ≠ Sys.fNom ∧ f ≠ Sys.rocofWindow ∧ (ItemName.sys f).tunable = true ∧
      (sysSpec f).1 = 40000 ∧ (sysSpec f).2.1 = 70000 := by decide

theorem threshold_inRange {f : Fin 38} (hf : f ∈ ([13, 14, 15, 17] : List (Fin 38))) {w : Int} (lo : 40000 ≤ w)
    (hi : w ≤ 70000) : (ItemName.sys f).inRange w = true := by
  obtain ⟨notNom, -, -, least, greatest⟩ := threshold_spec f hf
  simp [ItemName.inRange, notNom, between, least, greatest, lo, hi]

/-- A threshold written after f_nom holds the written value, and f_nom its own. -/
theorem applyItem_fNom_put_threshold (m : Image) {f : Fin 38} (hf : f ∈ ([13, 14, 15, 17] : List (Fin 38)))
    {v : Int} (hv : v = 50000 ∨ v = 60000) (w : Int) :
    ((applyItem m (.sys Sys.fNom) v).put (.sys f) w).get (.sys Sys.fNom) = v ∧
      ((applyItem m (.sys Sys.fNom) v).put (.sys f) w).get (.sys f) = w := by
  obtain ⟨notNom, -⟩ := threshold_spec f hf
  obtain ⟨nom, -⟩ := applyItem_fNom_table m hv
  refine ⟨?_, Image.get_put_self _ _ w⟩
  rw [Image.get_put_ne _ _ fun e => notNom (ItemName.sys.inj e), nom]

theorem write_fNom_refused {s : State} {tag : Byte} {v : Int} (lo : -2147483648 ≤ v) (hi : v ≤ 2147483647)
    (setup : s.sst.mode = .setup) (ht : s.takes 0x03 tag (itemBytes (.sys Sys.fNom) v))
    (h50 : v ≠ 50000) (h60 : v ≠ 60000) :
    exec (.write tag (itemBytes (.sys Sys.fNom) v)) s = .next (s.taken.replied 0x83 tag [4, byteOf 0]) := by
  have outside : (ItemName.sys Sys.fNom).inRange v = false := by
    rw [Bool.eq_false_iff, ne_eq, fNom_inRange]; omega
  refine exec_write_error ht (by simp [writeFits, Config.maxBody]) setup ?_
  rw [rawItems_itemBytes _ lo hi]
  exact writeImage_barred _ (by rw [RawItem.barred_of, outside]; rfl)

theorem write_fNom_taken {s : State} {tag : Byte} {v : Int} (hv : v = 50000 ∨ v = 60000)
    (setup : s.sst.mode = .setup) (ht : s.takes 0x03 tag (itemBytes (.sys Sys.fNom) v)) :
    exec (.write tag (itemBytes (.sys Sys.fNom) v)) s =
      .next ({ s.taken with sst.image := applyItem s.sst.image (.sys Sys.fNom) v }.replied 0x83 tag [0]) := by
  have items : rawItems (itemBytes (.sys Sys.fNom) v) = [RawItem.of (.sys Sys.fNom) v] :=
    rawItems_itemBytes _ (by omega) (by omega)
  have taken := exec_write_sys ht (by simp [writeFits, Config.maxBody]) setup (by
    rw [items]
    exact List.forall_mem_singleton.2 ⟨_, v, rfl, by decide, (fNom_inRange v).2 hv⟩)
  rwa [items, applyItems_of, applyItems_nil] at taken

theorem write_fNom_threshold_taken {s : State} {tag : Byte} {v w : Int} {f : Fin 38}
    (hf : f ∈ ([13, 14, 15, 17] : List (Fin 38))) (hv : v = 50000 ∨ v = 60000) (lo : 40000 ≤ w)
    (hi : w ≤ 70000) (setup : s.sst.mode = .setup)
    (ht : s.takes 0x03 tag (itemBytes (.sys Sys.fNom) v ++ itemBytes (.sys f) w)) :
    exec (.write tag (itemBytes (.sys Sys.fNom) v ++ itemBytes (.sys f) w)) s =
      .next ({ s.taken with
        sst.image := (applyItem s.sst.image (.sys Sys.fNom) v).put (.sys f) w }.replied 0x83 tag [0]) := by
  obtain ⟨notNom, notWindow, -⟩ := threshold_spec f hf
  have items : rawItems (itemBytes (.sys Sys.fNom) v ++ itemBytes (.sys f) w) =
      [RawItem.of (.sys Sys.fNom) v, RawItem.of (.sys f) w] := by
    rw [rawItems_itemBytes_append _ (by omega) (by omega), rawItems_itemBytes _ (by omega) (by omega)]
  have taken := exec_write_sys ht (by simp [writeFits, Config.maxBody]) setup (by
    rw [items]
    exact List.forall_mem_cons.2 ⟨⟨_, v, rfl, by decide, (fNom_inRange v).2 hv⟩,
      List.forall_mem_singleton.2 ⟨f, w, rfl, notWindow, threshold_inRange hf lo hi⟩⟩)
  rwa [items, applyItems_of, applyItems_of, applyItems_nil,
    applyItem_of_ne (fun e => notNom (ItemName.sys.inj e))] at taken

/-- Settles O27: f_nom alone in its two values and in any other, f_nom with a threshold after it, and TUNE. -/
theorem writeOfNominalFrequency : Obligations.WriteOfNominalFrequency := by
  refine ⟨fun s tag v lo hi setup ht => ⟨fun h50 h60 => ?_, fun hv => ?_⟩,
    fun s tag v w f hf hv lo hi setup ht => ?_, fun f hf => ?_⟩
  · exact ⟨_, write_fNom_refused lo hi setup ht h50 h60⟩
  · obtain ⟨nom, deep, low, high, restore⟩ := applyItem_fNom_table s.sst.image hv
    exact ⟨_, write_fNom_taken hv setup ht, nom, deep, low, high, restore,
      fun k hk => applyItem_fNom_get_other _ v hk⟩
  · obtain ⟨nom, threshold⟩ := applyItem_fNom_put_threshold s.sst.image hf hv w
    exact ⟨_, write_fNom_threshold_taken hf hv lo hi setup ht, nom, threshold⟩
  · obtain ⟨-, -, tunable, -⟩ := threshold_spec f hf
    exact tunable

end Sys2Proof.Machine

/-!
SUPPORT. The alarm latches: what the taking of a latch state does to a condition's row, what ACK does once its request is
served, and when the alarm lines are driven (R74 to R76).
-/
namespace Sys2Proof.Machine

/-! ### Actions on every row -/

/-- What the action on each index keeps, the action on all of them keeps. -/
theorem forAll_keeps {n : Nat} {α : Type} (f : Fin n → State → State) (p : State → α)
    (keep : ∀ i s, p (f i s) = p s) (s : State) : p (forAll n f s) = p s :=
  List.foldlRecOn (motive := fun t => p t = p s) _ _ rfl fun t ht i _ => (keep i t).trans ht

/-- When each index acts on its own row alone, the action on all of them acts on each row once. -/
theorem forAll_row {n : Nat} {α : Type} (f : Fin n → State → State) (row : State → Fin n → α) (g : α → α)
    (self : ∀ i s, row (f i s) i = g (row s i)) (other : ∀ i j s, i ≠ j → row (f i s) j = row s j)
    (s : State) (i : Fin n) : row (forAll n f s) i = g (row s i) := by
  have key : ∀ (l : List (Fin n)) (s : State), l.Nodup →
      row (l.foldl (fun s i => f i s) s) i = if i ∈ l then g (row s i) else row s i := by
    intro l
    induction l with
    | nil => exact fun s _ => rfl
    | cons a l ih =>
      intro s nodup
      obtain ⟨fresh, nodup⟩ := List.nodup_cons.1 nodup
      rw [List.foldl_cons, ih _ nodup]
      by_cases e : a = i
      · subst e
        rw [if_neg fresh, if_pos List.mem_cons_self, self]
      · simp [other _ _ _ e, Ne.symm e]
  rw [forAll, key _ s (List.nodup_finRange n), if_pos (List.mem_finRange i)]

/-! ### Latches (R74) -/

theorem isPresented_iff (c : Fin 24) :
    isPresented c = true ↔ c.val ∈ [0, 1, 2, 3, 4, 6, 9, 10, 11, 12, 13] := by
  simp only [isPresented, List.mem_cons, List.not_mem_nil, or_false, Bool.or_eq_true, Bool.and_eq_true,
    decide_eq_true_eq]
  omega

theorem setLatch_of_eq {c : Fin 24} {l : Latch} {s : State} (h : (s.condRow c).latch = l) :
    setLatch c l s = s := if_pos h

theorem setLatch_of_ne {c : Fin 24} {l : Latch} {s : State} (h : (s.condRow c).latch ≠ l) :
    setLatch c l s = notify .alarm c.val [sField l.code, sField (s.condRoute c)]
      (modCond c (fun r => { r with latch := l }) s) := if_neg h

theorem notify_condRow (k : NoticeKind) (n : Nat) (vs : List Word) (s : State) (c : Fin 24) :
    (notify k n vs s).condRow c = s.condRow c := by simp [State.condRow]

@[simp] theorem setLatch_condRow_self (c : Fin 24) (l : Latch) (s : State) :
    (setLatch c l s).condRow c = { s.condRow c with latch := l } := by
  by_cases h : (s.condRow c).latch = l
  · rw [setLatch_of_eq h, ← h]
  · rw [setLatch_of_ne h, notify_condRow, modCond_condRow_self]

theorem setLatch_condRow_ne {c d : Fin 24} (l : Latch) (s : State) (h : c ≠ d) :
    (setLatch c l s).condRow d = s.condRow d := by
  by_cases same : (s.condRow c).latch = l
  · rw [setLatch_of_eq same]
  · rw [setLatch_of_ne same, notify_condRow, modCond_condRow, if_neg h]

@[simp] theorem setLatch_handovers (c : Fin 24) (l : Latch) (s : State) :
    (setLatch c l s).handovers = s.handovers := by
  by_cases h : (s.condRow c).latch = l
  · rw [setLatch_of_eq h]
  · rw [setLatch_of_ne h, notify_handovers, modCond_handovers]

theorem setFaultLatch_of_eq {l : Latch} {s : State} (h : s.rsc.faultLatch = l) : setFaultLatch l s = s :=
  if_pos h

theorem setFaultLatch_of_ne {l : Latch} {s : State} (h : s.rsc.faultLatch ≠ l) :
    setFaultLatch l s = notify .alarm 24 [sField l.code, 1] { s with rsc.faultLatch := l } := if_neg h

@[simp] theorem setFaultLatch_handovers (l : Latch) (s : State) :
    (setFaultLatch l s).handovers = s.handovers := by
  by_cases h : s.rsc.faultLatch = l
  · rw [setFaultLatch_of_eq h]
  · rw [setFaultLatch_of_ne h, notify_handovers]

/-! ### ACK (R75) -/

/-- The numbered latches take an ACK in ascending number. -/
def ackConditions (s : State) : State := forAll 24 ackLatch s

theorem ackAll_eq (s : State) : ackAll s = ackFaultLatch (ackConditions s) := rfl

/-- An ACK of ALL moves each latch by the column and leaves the rest of its row. -/
theorem ackConditions_condRow (s : State) (c : Fin 24) :
    (ackConditions s).condRow c = { s.condRow c with latch := (s.condRow c).latch.onAck } :=
  forAll_row ackLatch State.condRow (fun r => { r with latch := r.latch.onAck })
    (fun i t => setLatch_condRow_self i _ t) (fun _ _ t ne => setLatch_condRow_ne _ t ne) s c

theorem ackConditions_handovers (s : State) : (ackConditions s).handovers = s.handovers :=
  forAll_keeps ackLatch State.handovers (fun c t => setLatch_handovers c _ t) s

theorem ackConditions_faultLatch (s : State) : (ackConditions s).rsc.faultLatch = s.rsc.faultLatch := by
  rw [ackConditions, forAll_keeps ackLatch (·.rsc.faultLatch) fun c t => (Quiet.ackLatch c t).faultLatch]

/-- A request of allowed length that HLC can take is its owner's to answer, with the cascade of the act. -/
theorem takeRequest_taken {kind tag : Byte} {body : List Byte} {act : Reply → State → State} {s : State}
    (ht : s.takes kind tag body) :
    takeRequest kind tag body true act s = cascade (act (answer kind tag) s.taken) := by
  obtain ⟨⟨high, -⟩, held⟩ := ht
  rw [takeRequest_held high held, serveRequest_fit, sendReply_tail]
  rfl

@[simp] theorem State.replied_handovers (s : State) (kind tag : Byte) (body : List Byte) :
    (s.replied kind tag body).handovers = s.handovers := rfl

@[simp] theorem State.taken_handovers (s : State) : s.taken.handovers = s.handovers := rfl

@[simp] theorem State.taken_rsc (s : State) : s.taken.rsc = s.rsc := rfl

/-- How RSC answers an ACK, as R193 codes it. -/
theorem answer_ack (tag : Byte) (st : Status) (s : State) :
    answer 0x15 tag st [] s = s.replied 0x95 tag [st.code] := rfl

/-- An act of ACK that hands nothing over is all that the request does. -/
theorem exec_ack_of_act {s t : State} {tag b : Byte} (ht : s.takes 0x15 tag [b])
    (act : ackAct [b] (answer 0x15 tag) s.taken = t) (idle : t.handovers = []) :
    exec (.ack tag [b]) s = .next t := by
  show Host.Outcome.next (takeRequest 0x15 tag [b] true (ackAct [b]) s) = _
  rw [takeRequest_taken ht, act, cascade, drain_nil _ _ idle]

theorem ackAct_condition {b : Byte} {c : Fin 24} (h : b.toNat = c.val) (reply : Reply) (s : State) :
    ackAct [b] reply s = reply .ok [] (ackLatch c s) := by
  have row : numberRow 24 (param [b] 0) = some c := by
    rw [show param [b] 0 = c.val from h, numberRow, dif_pos c.isLt]
  rw [ackAct, row]

/-- A number that names no condition: 24 is SETTINGS_FAULT, 255 is ALL. -/
theorem ackAct_other {b : Byte} (h : 24 ≤ b.toNat) (reply : Reply) (s : State) :
    ackAct [b] reply s =
      if b.toNat = 24 then reply .ok [] (ackFaultLatch s)
      else if b.toNat = 255 then reply .ok [] (ackAll s)
      else reply .range [] s := by
  have row : numberRow 24 (param [b] 0) = none := dif_neg (by simpa [param] using h)
  rw [ackAct, row]
  rfl

theorem exec_ack_condition {s : State} {tag b : Byte} {c : Fin 24} (ht : s.takes 0x15 tag [b])
    (h : b.toNat = c.val) :
    exec (.ack tag [b]) s =
      .next ((setLatch c (s.condRow c).latch.onAck s.taken).replied 0x95 tag [0]) := by
  have ⟨⟨_, idle⟩, _⟩ := ht
  exact exec_ack_of_act ht (ackAct_condition h _ _) (by simp [idle])

theorem exec_ack_fault {s : State} {tag b : Byte} (ht : s.takes 0x15 tag [b]) (h : b.toNat = 24) :
    exec (.ack tag [b]) s =
      .next ((setFaultLatch s.rsc.faultLatch.onAck s.taken).replied 0x95 tag [0]) := by
  have ⟨⟨_, idle⟩, _⟩ := ht
  refine exec_ack_of_act ht ?_ (by simp [idle])
  rw [ackAct_other (by omega), if_pos h, ackFaultLatch, State.taken_rsc, answer_ack, Status.code]

theorem exec_ack_all {s : State} {tag b : Byte} (ht : s.takes 0x15 tag [b]) (h : b.toNat = 255) :
    exec (.ack tag [b]) s =
      .next ((setFaultLatch s.rsc.faultLatch.onAck (ackConditions s.taken)).replied 0x95 tag [0]) := by
  have ⟨⟨_, idle⟩, _⟩ := ht
  refine exec_ack_of_act ht ?_ (by simp [ackConditions_handovers, idle])
  rw [ackAct_other (by omega), if_neg (by omega), if_pos h, ackAll_eq, ackFaultLatch, ackConditions_faultLatch,
    State.taken_rsc, answer_ack, Status.code]

theorem exec_ack_range {s : State} {tag b : Byte} (ht : s.takes 0x15 tag [b]) (above : 24 < b.toNat)
    (notAll : b.toNat < 255) : exec (.ack tag [b]) s = .next (s.taken.replied 0x95 tag [4]) := by
  have ⟨⟨_, idle⟩, _⟩ := ht
  refine exec_ack_of_act ht ?_ (by simp [idle])
  rw [ackAct_other (by omega), if_neg (by omega), if_neg (by omega), answer_ack, Status.code]

/-! ### The alarm lines (R76) -/

theorem alarmA_iff {s : State} (high : s.resetLow = false) :
    s.alarmA = true ↔ s.rsc.faultLatch ≠ .idle ∨ ∃ c, s.condRoute c = 1 ∧ (s.condRow c).latch ≠ .idle := by
  simp [State.alarmA, high]

theorem alarmB_iff {s : State} (high : s.resetLow = false) :
    s.alarmB = true ↔ ∃ c, s.condRoute c = 2 ∧ (s.condRow c).latch ≠ .idle := by
  simp [State.alarmB, high]

/-- Settles O36: the three columns, the truth, a latch that changes or stays, ACK of each kind of number, the two
lines. -/
theorem ackAndLatchTable : Obligations.AckAndLatchTable := by
  refine ⟨fun l => ?_, fun s c => ?_, fun s c l => ⟨setLatch_of_eq, setLatch_of_ne⟩,
    fun s l => ⟨setFaultLatch_of_eq, setFaultLatch_of_ne⟩, fun s tag b ht => ⟨fun c h => ?_, fun h => ?_,
      fun h => ?_, fun above notAll => ?_⟩, fun s high => ⟨alarmA_iff high, alarmB_iff high⟩⟩
  · cases l <;> exact ⟨rfl, rfl, rfl⟩
  · simp only [State.truth, Bool.and_eq_true, isPresented_iff]
  · exact exec_ack_condition ht h
  · exact exec_ack_fault ht h
  · exact ⟨ackConditions s.taken, exec_ack_all ht h, rfl, ackConditions_condRow s.taken⟩
  · exact exec_ack_range ht above notAll

end Sys2Proof.Machine

/-!
SUPPORT. UNBIND: the optional expected revision at the end of a body, a row named by its number, and what the request does
in each of its cases (R80, R182).
-/
namespace Sys2Proof.Machine

/-! ### The optional expected revision (R182) -/

/-- A revision is spelled by its two bytes, high byte first (R191). -/
theorem word16_bytes16 (x : Revision) : word16 (x.extractLsb' 8 8) (x.extractLsb' 0 8) = x := by
  have whole : x.extractLsb' 8 8 ++ x.extractLsb' 0 8 = x.extractLsb' 0 16 :=
    BitVec.extractLsb'_append_extractLsb'_eq_extractLsb' rfl
  rw [word16, whole, BitVec.extractLsb'_eq_self]

theorem word16_eq_iff (a b : Byte) (x : Revision) : word16 a b = x ↔ [a, b] = bytes16 x := by
  constructor
  · rintro rfl
    rw [bytes16, word16, BitVec.extractLsb'_append_eq_left, BitVec.extractLsb'_append_eq_right]
  · intro spelled
    obtain ⟨rfl, rfl⟩ : a = x.extractLsb' 8 8 ∧ b = x.extractLsb' 0 8 := by simpa [bytes16] using spelled
    exact word16_bytes16 x

/-- A request is not stale when the revision behind its parameters is left out or is the row's. -/
theorem stale_expected_iff (params rev : List Byte) (row : Revision) (len : rev.length = 0 ∨ rev.length = 2) :
    stale (expected params.length (params ++ rev)) row = false ↔ revisionGood rev row := by
  rcases len with absent | two
  · obtain rfl := List.length_eq_zero_iff.1 absent
    simp [expected, stale, revisionGood]
  · obtain ⟨a, b, rfl⟩ : ∃ a b, rev = [a, b] := by
      match rev, two with
      | [a, b], _ => exact ⟨a, b, rfl⟩
    have given : expected params.length (params ++ [a, b]) = some (word16 a b) := by simp [expected]
    simp [given, stale, revisionGood, word16_eq_iff]

/-! ### A row by its number (R2) -/

theorem numberRow_val {n : Nat} (i : Fin n) : numberRow n i.val = some i := dif_pos i.isLt

theorem numberRow_of_le {n k : Nat} (h : n ≤ k) : numberRow n k = none := dif_neg (Nat.not_lt.2 h)

/-! ### The cases of UNBIND (R80) -/

section
variable {s : State} {chain : Byte} {rev : List Byte} {n : Fin 6}

theorem unbindChain_unbound (unbound : (s.chain n).count = 0) : unbindChain n s = s := if_pos unbound

theorem unbindChain_bound (bound : (s.chain n).count ≠ 0) :
    unbindChain n s = notify .chain n.val [1]
      (modChain n (fun ch => { ch with count := 0, trigger := none, revision := ch.revision + 1 }) s) :=
  if_neg bound

@[simp] theorem unbindChain_handovers (n : Fin 6) (s : State) :
    (unbindChain n s).handovers = s.handovers := by
  by_cases unbound : (s.chain n).count = 0
  · rw [unbindChain_unbound unbound]
  · rw [unbindChain_bound unbound, notify_handovers, modChain_handovers]

theorem unbindAct_of_no_chain (above : 5 < chain.toNat) (reply : Reply) :
    unbindAct (chain :: rev) reply s = reply .range [] s := by
  have row : numberRow 6 (param (chain :: rev) 0) = none := numberRow_of_le above
  rw [unbindAct, row]

/-- A chain that exists is unbound unless the revision given is not its own or a step of it is in flight. -/
theorem unbindAct_of_chain (name : n.val = chain.toNat) (reply : Reply) :
    unbindAct (chain :: rev) reply s =
      if stale (expected 1 (chain :: rev)) (s.chain n).revision then
        reply .staleRevision (bytes16 (s.chain n).revision) s
      else if (s.chain n).flight.isSome then reply .busy [] s
      else reply .ok [] (unbindChain n s) := by
  have row : numberRow 6 (param (chain :: rev) 0) = some n := by
    rw [show param (chain :: rev) 0 = n.val from name.symm, numberRow_val]
  rw [unbindAct, row]

theorem unbindAct_stale (len : rev.length = 0 ∨ rev.length = 2) (name : n.val = chain.toNat)
    (other : ¬revisionGood rev (s.chain n).revision) (reply : Reply) :
    unbindAct (chain :: rev) reply s = reply .staleRevision (bytes16 (s.chain n).revision) s := by
  rw [unbindAct_of_chain name, if_pos]
  exact eq_true_of_ne_false (mt (stale_expected_iff [chain] rev _ len).1 other)

theorem unbindAct_of_good (len : rev.length = 0 ∨ rev.length = 2) (name : n.val = chain.toNat)
    (good : revisionGood rev (s.chain n).revision) (reply : Reply) :
    unbindAct (chain :: rev) reply s =
      if (s.chain n).flight.isSome then reply .busy [] s else reply .ok [] (unbindChain n s) := by
  have fresh : stale (expected 1 (chain :: rev)) (s.chain n).revision = false :=
    (stale_expected_iff [chain] rev _ len).2 good
  rw [unbindAct_of_chain name, fresh, if_neg Bool.false_ne_true]

theorem unbindAct_busy (len : rev.length = 0 ∨ rev.length = 2) (name : n.val = chain.toNat)
    (good : revisionGood rev (s.chain n).revision) (inStep : (s.chain n).flight ≠ none) (reply : Reply) :
    unbindAct (chain :: rev) reply s = reply .busy [] s := by
  rw [unbindAct_of_good len name good, if_pos (Option.isSome_iff_ne_none.2 inStep)]

theorem unbindAct_ok (len : rev.length = 0 ∨ rev.length = 2) (name : n.val = chain.toNat)
    (good : revisionGood rev (s.chain n).revision) (idle : (s.chain n).flight = none) (reply : Reply) :
    unbindAct (chain :: rev) reply s = reply .ok [] (unbindChain n s) := by
  rw [unbindAct_of_good len name good, idle, if_neg (by simp)]

/-- How CHU answers an UNBIND, as R193 codes it. -/
theorem answer_unbind (tag : Byte) (st : Status) (values : List Byte) (s : State) :
    answer 0x0E tag st values s = s.replied 0x8E tag (st.code :: values) := rfl

/-- An UNBIND whose act answers and hands nothing over does that alone. -/
theorem exec_unbind_of_act {t : State} {tag : Byte} {st : Status} {values : List Byte}
    (len : rev.length = 0 ∨ rev.length = 2) (ht : s.takes 0x0E tag (chain :: rev))
    (act : ∀ reply : Reply, unbindAct (chain :: rev) reply s.taken = reply st values t)
    (idle : t.handovers = s.handovers) :
    exec (.unbind tag (chain :: rev)) s = .next (t.replied 0x8E tag (st.code :: values)) := by
  have fits : (decide ((chain :: rev).length = 1) || decide ((chain :: rev).length = 3)) = true := by
    simpa using len
  have ⟨⟨_, calm⟩, _⟩ := ht
  show Host.Outcome.next (takeRequest 0x0E tag (chain :: rev)
    (decide ((chain :: rev).length = 1) || decide ((chain :: rev).length = 3)) (unbindAct (chain :: rev)) s) = _
  rw [fits, takeRequest_taken ht, act, answer_unbind, cascade,
    drain_nil _ _ (by rw [State.replied_handovers, idle, calm])]

end

/-- Settles O41: no such chain, a stale revision, a step in flight, an unbound chain, a bound one. -/
theorem unbindTable : Obligations.UnbindTable := by
  intro s tag chain rev len ht
  refine ⟨fun above => ?_, fun n name => ⟨fun other => ?_, fun good inStep => ?_, fun good idle unbound => ?_,
    fun good idle bound => ?_⟩⟩
  · exact exec_unbind_of_act len ht (unbindAct_of_no_chain above) rfl
  · exact exec_unbind_of_act len ht (unbindAct_stale (s := s.taken) len name other) rfl
  · exact exec_unbind_of_act len ht (unbindAct_busy (s := s.taken) len name good inStep) rfl
  · have act := unbindAct_ok (s := s.taken) len name good idle
    rw [unbindChain_unbound (s := s.taken) unbound] at act
    exact exec_unbind_of_act len ht act rfl
  · have released := exec_unbind_of_act len ht (unbindAct_ok (s := s.taken) len name good idle) (by simp)
    rw [unbindChain_bound (s := s.taken) bound] at released
    exact released

end Sys2Proof.Machine

/-!
SUPPORT. The rest timer: what a set's move does to the crank queue, which moves and services keep the attempts and the
origin of a start, and the expiry of a timer that is due (R98, R100, R103, R114).
-/
namespace Sys2Proof.Machine

/-! ### The crank queue at a move (R100) -/

@[simp] theorem notifySet_gsd (g : Fin 6) (s : State) : (notifySet g s).gsd = s.gsd := notify_gsd ..

@[simp] theorem tellBss_gsd (g : Fin 6) (old new : SetState) (s : State) :
    (tellBss g old new s).gsd = s.gsd := by
  unfold tellBss; split <;> rfl

@[simp] theorem reportStart_gsd (o : Origin) (g : Fin 6) (ok : Bool) (s : State) :
    (reportStart o g ok s).gsd = s.gsd := by cases o <;> rfl

@[simp] theorem reportStop_gsd (o : Origin) (g : Fin 6) (st : SetState) (s : State) :
    (reportStop o g st s).gsd = s.gsd := by cases o <;> rfl

@[simp] theorem modSet_queue (g : Fin 6) (f : SetRec → SetRec) (s : State) :
    (modSet g f s).gsd.queue = s.gsd.queue := rfl

@[simp] theorem endStart_queue (g : Fin 6) (st : SetState) (s : State) :
    (endStart g st s).gsd.queue = s.gsd.queue := by
  unfold endStart; split
  · rfl
  · split
    · rw [reportStart_gsd, modSet_queue]
    · rfl

@[simp] theorem endStop_queue (g : Fin 6) (old st : SetState) (s : State) :
    (endStop g old st s).gsd.queue = s.gsd.queue := by
  unfold endStop; split
  · rfl
  · split
    · rw [reportStop_gsd, modSet_queue]
    · rfl

/-- The steps of a move to another state, in order. -/
theorem moveSet_of_ne {g : Fin 6} {new : SetState} {s : State} (changes : (s.setRec g).state ≠ new) :
    moveSet g new s =
      let old := (s.setRec g).state
      let placed := { s with gsd := crankPlace g old new s.gsd }
      endStop g old new (endStart g new
        (tellBss g old new (notifySet g (modSet g (placed.enterSet new) placed)))) := if_neg changes

theorem moveSet_queue {g : Fin 6} {new : SetState} {s : State} (changes : (s.setRec g).state ≠ new) :
    (moveSet g new s).gsd.queue = (crankPlace g (s.setRec g).state new s.gsd).queue := by
  simp only [moveSet_of_ne changes, endStop_queue, endStart_queue, tellBss_gsd, notifySet_gsd, modSet_queue]

/-- A set that was not queued and becomes QUEUED stands at the tail. -/
theorem moveSet_queued_queue {g : Fin 6} {s : State} (fresh : (s.setRec g).state ≠ .queued) :
    (moveSet g .queued s).gsd.queue = s.gsd.queue ++ [g] := by
  simp only [moveSet_queue fresh, crankPlace, if_neg fresh, if_true]

/-! ### The start of a set while it lasts (R103, R114) -/

/-- What a start keeps from its beginning to its end: the attempts made, and the origin. -/
def SetRec.start (r : SetRec) : Nat × Option Origin := (r.attempts, r.origin)

theorem SetRec.start_eq_iff (r r' : SetRec) :
    r'.start = r.start ↔ r'.attempts = r.attempts ∧ r'.origin = r.origin := Prod.ext_iff

/-- Every state but ONLINE is entered with the attempts as they are (R105). -/
theorem enterSet_start {st : SetState} (offline : st ≠ .online) (s : State) (r : SetRec) :
    (s.enterSet st r).start = r.start := by
  rw [State.enterSet, if_neg offline]; rfl

theorem endStart_of_lasting {st : SetState} (lasting : endsStart st = false) (g : Fin 6) (s : State) :
    endStart g st s = s := by
  unfold endStart; split
  · rfl
  · rw [lasting, if_neg Bool.false_ne_true]

theorem endStop_start (g : Fin 6) (old st : SetState) (s : State) :
    ((endStop g old st s).setRec g).start = (s.setRec g).start := by
  unfold endStop; split
  · rfl
  · split
    · rw [reportStop_setRec, modSet_setRec_self]; rfl
    · rfl

/-- The move of a set to a state that does not end a start keeps the start of every set. -/
theorem moveSet_start {new : SetState} (lasting : endsStart new = false) (g h : Fin 6) (s : State) :
    ((moveSet g new s).setRec h).start = (s.setRec h).start := by
  by_cases self : g = h
  · subst self
    by_cases stays : (s.setRec g).state = new
    · rw [moveSet, if_pos stays]
    · have offline : new ≠ .online := by rintro rfl; exact Bool.noConfusion lasting
      rw [moveSet_of_ne stays]
      simp only
      rw [endStop_start, endStart_of_lasting lasting, tellBss_setRec, notifySet, notify_setRec,
        modSet_setRec_self, enterSet_start offline]
      rfl
  · rw [moveSet_other g h new s self]

theorem serveUpTo_start (n : Nat) (s : State) (h : Fin 6) :
    ((serveUpTo n s).setRec h).start = (s.setRec h).start := by
  induction n generalizing s with
  | zero => rfl
  | succ n ih =>
    rw [serveUpTo]; split
    · rfl
    · next head _ _ =>
      split
      · exact (ih _).trans (moveSet_start rfl head h s)
      · rfl

/-- Serving the queue cranks sets, which ends no start. -/
theorem serveQueue_start (s : State) (h : Fin 6) :
    ((serveQueue s).setRec h).start = (s.setRec h).start := serveUpTo_start 3 s h

/-! ### The expiry of a timer of a set (R98) -/

/-- A timer whose due tick has come expires without time passing. -/
theorem advanceTo_due {s : State} {due : Tick} (now : s.remaining due = 0) : advanceTo due s = s := if_pos now

/-- The due timer of an installed set, in the state it belongs to, acts as one event at GSD, with its cascade. -/
theorem setTimer_due {st : SetState} {f : Fin 6 → State → State} {g : Fin 6} {s : State} {due : Tick}
    (high : s.resetLow = false) (installed : s.setInstalled g = true) (state : (s.setRec g).state = st)
    (runs : (s.setRec g).timer = some due) (now : s.remaining due = 0) :
    setTimer st f g s = cascade (gsdEvent (f g) s) := by
  have act : gsdEvent (whileInstalled f g) s = gsdEvent (f g) s := by
    simp only [gsdEvent, whileInstalled_installed f g s installed]
  rw [setTimer, if_pos state, takeEvent_high _ _ high, runs, expire_running, advanceTo_due now, act, cascade]

/-- Settles O50: the event, the place in the queue, and the start kept by the move and by the service after it. -/
theorem restTimerQueuesTheSet : Obligations.RestTimerQueuesTheSet := by
  intro s g due ⟨high, _⟩ installed rest runs now
  have event : exec (.restTimerExpiry g) s =
      .next (cascade (gsdEvent (fun x => serveQueue (moveSet g .queued x)) s)) :=
    congrArg Host.Outcome.next (setTimer_due high installed rest runs now)
  have tail := moveSet_queued_queue (g := g) (s := s) (by simp [rest])
  have moved := moveSet_start (new := .queued) rfl g g s
  have served := (serveQueue_start (moveSet g .queued s) g).trans moved
  obtain ⟨attemptsMoved, originMoved⟩ := (SetRec.start_eq_iff _ _).1 moved
  obtain ⟨attemptsServed, originServed⟩ := (SetRec.start_eq_iff _ _).1 served
  exact ⟨event, moveSet_state g .queued s, tail, attemptsMoved, originMoved, attemptsServed, originServed⟩

end Sys2Proof.Machine

/-!
SUPPORT. COMMIT: the first item out of range in the check order, the acceptance of an image as one notice over the new
settings registers, and what the request does in each of its cases (R165, R169, R176).
-/
namespace Sys2Proof.Machine

/-! ### The items in check order (R165) -/

theorem firstOutside_eq_some_iff {m : Image} {k : ItemName} :
    firstOutside m = some k ↔ k.inRange (m.get k) = false ∧
      ∃ pre post, checkOrder = pre ++ k :: post ∧ ∀ q ∈ pre, q.inRange (m.get q) = true := by
  simp only [firstOutside, List.find?_eq_some_iff_append, Bool.not_eq_true', Bool.not_not]

theorem firstOutside_of_inRange {m : Image} (inside : ∀ k : ItemName, k.inRange (m.get k) = true) :
    firstOutside m = none :=
  List.find?_eq_none.2 fun k _ => by simp [inside k]

/-! ### An accepted image (R165, R169, R176) -/

/-- A notice and the start of a scan touch different registers, and time does not pass between them. -/
theorem startScan_notify (k : NoticeKind) (n : Nat) (vs : List Word) (s : State) :
    startScan (notify k n vs s) = notify k n vs (startScan s) := apply_ite startScan _ _ _

/-- What the acceptance of an image writes, the MODE notice aside. -/
def checkEntered (check : Word) (s : State) : State :=
  { s with
    sst.committed := some check
    sst.mode := .check
    sst.scan := some ⟨s.tick, 0, 0xFFFFFFFF⟩ }

theorem commitImage_of_setup {s : State} (setup : s.sst.mode = .setup) (check : Word) :
    commitImage check s =
      notify .mode 0 [1, 0, 2, setField s.activeLevels] (checkEntered check s) := by
  rw [commitImage, changeMode, startScan_notify, setup]
  rfl

/-! ### The cases of COMMIT (R165) -/

section
variable {s : State} {body : List Byte}

theorem commitAct_mode (other : s.sst.mode ≠ .setup) (reply : Reply) :
    commitAct body reply s = reply .mode [] s := if_neg other

theorem commitAct_range {k : ItemName} (setup : s.sst.mode = .setup)
    (outside : firstOutside s.sst.image = some k) (reply : Reply) :
    commitAct body reply s =
      reply .range [byteOf k.codes.1, byteOf k.codes.2.1, byteOf k.codes.2.2] s := by
  rw [commitAct, if_pos setup, outside]

/-- In SETUP with every item in range, the computed check and the request's decide. -/
theorem commitAct_of_inRange (setup : s.sst.mode = .setup)
    (inside : ∀ k : ItemName, k.inRange (s.sst.image.get k) = true) (reply : Reply) :
    commitAct body reply s =
      if checkOf s.sst.image = param32 body 0 then
        reply .ok (bytes32 (checkOf s.sst.image)) (commitImage (checkOf s.sst.image) s)
      else reply .checkMismatch (bytes32 (checkOf s.sst.image)) s := by
  rw [commitAct, if_pos setup, firstOutside_of_inRange inside]

theorem commitAct_checkMismatch (setup : s.sst.mode = .setup)
    (inside : ∀ k : ItemName, k.inRange (s.sst.image.get k) = true)
    (differs : checkOf s.sst.image ≠ param32 body 0) (reply : Reply) :
    commitAct body reply s = reply .checkMismatch (bytes32 (checkOf s.sst.image)) s := by
  rw [commitAct_of_inRange setup inside, if_neg differs]

theorem commitAct_ok (setup : s.sst.mode = .setup)
    (inside : ∀ k : ItemName, k.inRange (s.sst.image.get k) = true)
    (agrees : checkOf s.sst.image = param32 body 0) (reply : Reply) :
    commitAct body reply s = reply .ok (bytes32 (checkOf s.sst.image))
      (notify .mode 0 [1, 0, 2, setField s.activeLevels] (checkEntered (checkOf s.sst.image) s)) := by
  rw [commitAct_of_inRange setup inside, if_pos agrees, commitImage_of_setup setup]

/-- How SST answers a COMMIT, as R193 codes it. -/
theorem answer_commit (tag : Byte) (st : Status) (values : List Byte) (s : State) :
    answer 0x04 tag st values s = s.replied 0x84 tag (st.code :: values) := rfl

/-- A COMMIT whose act answers and hands nothing over does that alone. -/
theorem exec_commit_of_act {t : State} {tag : Byte} {st : Status} {values : List Byte}
    (len : body.length = 4) (ht : s.takes 0x04 tag body)
    (act : ∀ reply : Reply, commitAct body reply s.taken = reply st values t)
    (idle : t.handovers = s.handovers) :
    exec (.commit tag body) s = .next (t.replied 0x84 tag (st.code :: values)) := by
  have ⟨⟨_, calm⟩, _⟩ := ht
  show Host.Outcome.next (takeRequest 0x04 tag body (decide (body.length = 4)) (commitAct body) s) = _
  rw [decide_eq_true len, takeRequest_taken ht, act, answer_commit, cascade,
    drain_nil _ _ (by rw [State.replied_handovers, idle, calm])]

end

/-- Settles O29: outside SETUP; an item out of range; every item in range, with another check and with the check. -/
theorem commitTable : Obligations.CommitTable := by
  intro s tag b3 b2 b1 b0 ht
  refine ⟨fun other => ?_, fun setup => ⟨fun pre k post order outside before => ?_,
    fun inside => ⟨fun differs => ?_, fun agrees => ?_⟩⟩⟩
  · exact exec_commit_of_act rfl ht (commitAct_mode (s := s.taken) other) rfl
  · have first : firstOutside s.sst.image = some k :=
      firstOutside_eq_some_iff.2 ⟨outside, pre, post, order, before⟩
    exact exec_commit_of_act rfl ht (commitAct_range (s := s.taken) setup first) rfl
  · exact exec_commit_of_act rfl ht (commitAct_checkMismatch (s := s.taken) setup inside differs) rfl
  · exact exec_commit_of_act rfl ht (commitAct_ok (s := s.taken) setup inside agrees) (notify_handovers ..)

end Sys2Proof.Machine

/-!
SUPPORT. The seven facts of Safety.lean are kept by every command and by every step: one lemma for each act that a command
runs, then `Keeps.exec` over the commands and `Keeps.step`.
-/
namespace Sys2Proof.Machine

namespace Keeps

/-! ### Acts of requests -/

/-- A reply changes nothing that the facts read. -/
theorem replied (kind tag : Byte) (st : Status) (vs : List Byte) {s t : State} (k : Keeps s t) :
    Keeps s (Machine.answer kind tag st vs t) := k.trans (answer _ _ _ _ _)

theorem readAct (kind tag : Byte) (body : List Byte) (s : State) :
    Keeps s (Machine.readAct body (Machine.answer kind tag) s) := by
  unfold Machine.readAct; split <;> exact answer _ _ _ _ s

theorem statusAct (kind tag : Byte) (body : List Byte) (s : State) :
    Keeps s (Machine.statusAct body (Machine.answer kind tag) s) := by
  unfold Machine.statusAct; split <;> exact answer _ _ _ _ s

theorem writeAct (kind tag : Byte) (body : List Byte) (s : State) :
    Keeps s (Machine.writeAct body (Machine.answer kind tag) s) := by
  unfold Machine.writeAct; split
  · split
    · exact answer _ _ _ _ s
    · exact replied _ _ _ _ (takeWrite _ _ s)
  · exact answer _ _ _ _ s

theorem commitAct (kind tag : Byte) (body : List Byte) (s : State) :
    Keeps s (Machine.commitAct body (Machine.answer kind tag) s) := by
  unfold Machine.commitAct; split
  · next setup =>
    split
    · exact answer _ _ _ _ s
    · exact ite (fun _ => replied _ _ _ _ (commitImage _ s setup)) (fun _ => answer _ _ _ _ s)
  · exact answer _ _ _ _ s

theorem tuneItem (kind tag : Byte) (k : ItemName) (v : Int) (s : State) :
    Keeps s (Machine.tuneItem k v (Machine.answer kind tag) s) :=
  ite (fun _ => ite (fun _ => answer _ _ _ _ s) (fun _ => ite (fun _ => answer _ _ _ _ s)
    (fun _ => (replied _ _ _ _ (takeTune k v s)).trans (itemTuned s k _)))) (fun _ => answer _ _ _ _ s)

theorem tuneAct (kind tag : Byte) (body : List Byte) (s : State) :
    Keeps s (Machine.tuneAct body (Machine.answer kind tag) s) := by
  unfold Machine.tuneAct; split
  · split
    · exact tuneItem _ _ _ _ s
    · exact answer _ _ _ _ s
  · exact answer _ _ _ _ s

theorem engageAct (kind tag : Byte) (s : State) :
    Keeps s (Machine.engageAct (Machine.answer kind tag) s) :=
  ite (fun _ => (answer _ _ _ _ s).trans (engageRun _)) (fun _ => answer _ _ _ _ s)

theorem disengageAct (kind tag : Byte) (s : State) :
    Keeps s (Machine.disengageAct (Machine.answer kind tag) s) :=
  ite (fun _ => (answer _ _ _ _ s).trans (disengageRun _)) (fun _ => answer _ _ _ _ s)

theorem safeAct (kind tag : Byte) (s : State) :
    Keeps s (Machine.safeAct (Machine.answer kind tag) s) :=
  ite (fun _ => answer _ _ _ _ s) (fun _ => (answer _ _ _ _ s).trans (enterSafe _ _))

theorem autoAct (kind tag : Byte) (body : List Byte) (s : State) :
    Keeps s (Machine.autoAct body (Machine.answer kind tag) s) := by
  have switched : ∀ b, Keeps s (Machine.answer kind tag .ok [] { s with rsc.auto := b }) := fun b =>
    replied _ _ _ _ (withRsc s { s.rsc with auto := b } rfl)
  unfold Machine.autoAct; split
  · exact switched false
  · exact ite (fun _ => switched true) (fun _ => (switched true).trans (ofQuiet (Quiet.examine _)))
  · exact answer _ _ _ _ s

theorem forceAct (kind tag : Byte) (body : List Byte) (s : State) :
    Keeps s (Machine.forceAct body (Machine.answer kind tag) s) := by
  unfold Machine.forceAct; split
  · exact answer _ _ _ _ s
  · exact ite (fun _ => answer _ _ _ _ s) (fun _ => ite (fun _ => answer _ _ _ _ s) (fun _ =>
      (replied _ _ _ _ (ofQuiet (Quiet.setFlag _ _ s))).trans (ofQuiet (Quiet.examine _))))

theorem clearAct (kind tag : Byte) (body : List Byte) (s : State) :
    Keeps s (Machine.clearAct body (Machine.answer kind tag) s) := by
  unfold Machine.clearAct; split
  · exact answer _ _ _ _ s
  · exact replied _ _ _ _ (ofQuiet (Quiet.clearFlag _ s))

theorem ackFaultLatch (s : State) : Keeps s (Machine.ackFaultLatch s) := setFaultLatch _ s

theorem ackAll (s : State) : Keeps s (Machine.ackAll s) :=
  (ofQuiet (Quiet.forAll 24 _ Quiet.ackLatch s)).trans (ackFaultLatch _)

theorem ackAct (kind tag : Byte) (body : List Byte) (s : State) :
    Keeps s (Machine.ackAct body (Machine.answer kind tag) s) := by
  unfold Machine.ackAct; split
  · exact replied _ _ _ _ (ofQuiet (Quiet.ackLatch _ s))
  · exact ite (fun _ => replied _ _ _ _ (ackFaultLatch s))
      (fun _ => ite (fun _ => replied _ _ _ _ (ackAll s)) (fun _ => answer _ _ _ _ s))

theorem bindDecoded (kind tag : Byte) (n : Fin 6) (trigger : Option (Fin 24)) (k : ChainKind) (m : ChainMode)
    (body : List Byte) (s : State) :
    Keeps s (Machine.bindDecoded n trigger k m body (Machine.answer kind tag) s) := by
  unfold Machine.bindDecoded; dsimp only
  repeat' refine ite (fun _ => answer _ _ _ _ s) (fun _ => ?_)
  exact replied _ _ _ _ (ofQuiet (Quiet.bindChain _ _ _ _ _ _ _ s))

theorem bindAct (kind tag : Byte) (body : List Byte) (s : State) :
    Keeps s (Machine.bindAct body (Machine.answer kind tag) s) := by
  unfold Machine.bindAct; split
  · exact bindDecoded _ _ _ _ _ _ _ s
  · exact answer _ _ _ _ s

theorem unbindAct (kind tag : Byte) (body : List Byte) (s : State) :
    Keeps s (Machine.unbindAct body (Machine.answer kind tag) s) := by
  unfold Machine.unbindAct; split
  · exact answer _ _ _ _ s
  · repeat' refine ite (fun _ => answer _ _ _ _ s) (fun _ => ?_)
    exact replied _ _ _ _ (ofQuiet (Quiet.unbindChain _ s))

theorem stepAct (kind tag : Byte) (body : List Byte) (s : State) :
    Keeps s (Machine.stepAct body (Machine.answer kind tag) s) := by
  unfold Machine.stepAct; split
  · exact answer _ _ _ _ s
  · repeat' refine ite (fun _ => answer _ _ _ _ s) (fun _ => ?_)
    exact replied _ _ _ _ (ofQuiet (Quiet.takeStep _ _ s))

/-- GSD changes one set's row, its state apart; the UNIT notice or the move follows. -/
theorem moveOrNotify (g : Fin 6) (st : SetState) (s : State) : Keeps s (Machine.moveOrNotify g st s) :=
  ite (fun _ => ofQuiet (Quiet.notify _ _ _ s)) (fun _ => ofQuiet (Quiet.moveSet _ _ s))

theorem gsdEvent (f : State → State) (s : State) (hf : Keeps s (f s)) : Keeps s (Machine.gsdEvent f s) := by
  refine hf.trans (withSets _ _ fun g => ?_)
  rw [Tab.get_mapIdx]; split <;> rfl

theorem fdcEvent (f : State → State) (s : State) (hf : Keeps s (f s)) : Keeps s (Machine.fdcEvent f s) := by
  refine hf.trans (withFeeders _ _ fun i => ?_)
  rw [Tab.get_mapIdx]; split <;> rfl

/-- What an action on a set leaves, where the set's state allows it. -/
theorem setAction (a : SetAction) (g : Fin 6) {s t : State} (h : Machine.setAction a g s = some t) :
    Keeps s t := by
  cases a with
  | start =>
    simp only [Machine.setAction, manualStart] at h
    split at h <;> cases h
    exact ofQuiet (Quiet.startSet _ _ s)
  | stop =>
    simp only [Machine.setAction, manualStop] at h
    split at h <;> cases h
    · exact ofQuiet (Quiet.gsdEvent _ s (Quiet.giveUp g s))
    · exact ofQuiet (Quiet.gsdEvent _ s (Quiet.giveUp g s))
    · exact ofQuiet (Quiet.gsdEvent _ s ((Quiet.giveUp g s).trans (Quiet.serveQueue _)))
    · exact ofQuiet (Quiet.stopSet g none s)
    · exact ofQuiet (Quiet.stopSet g none s)
  | takeOut =>
    simp only [Machine.setAction, outOfServiceSet] at h
    split at h
    · split at h <;> cases h
      · exact rfl' s
      · exact gsdEvent _ s ((modSet g _ s).trans (moveOrNotify _ _ _))
    · cases h
  | bringIn =>
    simp only [Machine.setAction, intoServiceSet] at h
    split at h <;> cases h
    · exact gsdEvent _ s ((modSet g (fun r => { r with outOfService := false }) s).trans (moveOrNotify _ _ _))
    · exact rfl' s
  | clearLockout =>
    simp only [Machine.setAction, Machine.clearLockout] at h
    split at h <;> cases h
    exact ofQuiet (Quiet.gsdEvent _ s ((Quiet.modSet g _ s).trans (Quiet.mapSet _ _)))

theorem gensetAct (kind tag : Byte) (body : List Byte) (s : State) :
    Keeps s (Machine.gensetAct body (Machine.answer kind tag) s) := by
  unfold Machine.gensetAct; split
  · repeat' refine ite (fun _ => answer _ _ _ _ s) (fun _ => ?_)
    split
    · next done => exact replied _ _ _ _ (setAction _ _ done)
    · exact answer _ _ _ _ s
  · exact answer _ _ _ _ s

theorem runtimeAct (kind tag : Byte) (body : List Byte) (s : State) :
    Keeps s (Machine.runtimeAct body (Machine.answer kind tag) s) := by
  unfold Machine.runtimeAct; split
  · exact answer _ _ _ _ s
  · repeat' refine ite (fun _ => answer _ _ _ _ s) (fun _ => ?_)
    exact replied _ _ _ _ (modSet _ _ s)

/-- What an action on a feeder leaves, where the feeder's state allows it. -/
theorem feederAction (a : FeederAction) (f : Fin 16) {s t : State} (h : Machine.feederAction a f s = some t) :
    Keeps s t := by
  cases a with
  | trip =>
    simp only [Machine.feederAction] at h
    split at h <;> cases h
    exact ofQuiet (Quiet.tripFeeder _ _ s)
  | close =>
    simp only [Machine.feederAction] at h
    split at h <;> cases h
    exact ofQuiet (Quiet.closeFeeder _ _ s)
  | takeOut =>
    simp only [Machine.feederAction] at h
    split at h
    · cases h
    · split at h <;> cases h
      · exact rfl' s
      · exact fdcEvent _ s ((modFeeder f _ s).trans (ofQuiet (Quiet.moveFeeder _ _ _)))
  | bringIn =>
    simp only [Machine.feederAction] at h
    split at h <;> cases h
    · exact fdcEvent _ s ((modFeeder f _ s).trans (ofQuiet (Quiet.mapFeeder _ _)))
    · exact rfl' s

theorem feederAct (kind tag : Byte) (body : List Byte) (s : State) :
    Keeps s (Machine.feederAct body (Machine.answer kind tag) s) := by
  unfold Machine.feederAct; split
  · repeat' refine ite (fun _ => answer _ _ _ _ s) (fun _ => ?_)
    split
    · next done => exact replied _ _ _ _ (feederAction _ _ done)
    · exact answer _ _ _ _ s
  · exact answer _ _ _ _ s

theorem setService (p : Fin 8) (v : Bool) (s : State) : Keeps s (Machine.setService p v s) :=
  ite (fun _ => rfl' s) (fun _ => (modPlant p _ s).trans (ofQuiet (Quiet.notify _ _ _ _)))

theorem plantAct (kind tag : Byte) (body : List Byte) (s : State) :
    Keeps s (Machine.plantAct body (Machine.answer kind tag) s) := by
  unfold Machine.plantAct; split
  · exact answer _ _ _ _ s
  · repeat' refine ite (fun _ => answer _ _ _ _ s) (fun _ => ?_)
    exact replied _ _ _ _ (setService _ _ s)

theorem blackstartAct (kind tag : Byte) (body : List Byte) (s : State) :
    Keeps s (Machine.blackstartAct body (Machine.answer kind tag) s) := by
  unfold Machine.blackstartAct
  refine ite (fun _ => answer _ _ _ _ s) fun _ => ite (fun _ => answer _ _ _ _ s) fun _ =>
    ite (fun _ => answer _ _ _ _ s) fun failed => ?_
  have notFirst : s.bss.program ≠ .first := by rw [Classical.not_not.1 failed]; exact nofun
  exact ite (fun _ => replied _ _ _ _ (ofQuiet (Quiet.retryProgram s)))
    (fun _ => replied _ _ _ _ (ofQuiet (Quiet.abandonProgram s notFirst)))

/-! ### Acts of events -/

theorem sendCeiling (s : State) : Keeps s (Machine.sendCeiling s) := by
  unfold Machine.sendCeiling; split
  · exact rfl' s
  · split
    · exact rfl' s
    · exact startCeiling _ _ s

theorem silentTickDue (s : State) : Keeps s (Machine.silentTickDue s) := by
  unfold Machine.silentTickDue; split
  · exact rfl' s
  · exact (advanceTo _ s).trans (silentTick _ _)

theorem faultTickDue (s : State) : Keeps s (Machine.faultTickDue s) := by
  unfold Machine.faultTickDue; split
  · exact rfl' s
  · exact (advanceTo _ s).trans (faultTick _ _)

theorem holdOffEnded (c : Fin 24) (s : State) : Keeps s (Machine.holdOffEnded c s) :=
  ite (fun _ => (modCond c _ s).trans (ofQuiet (Quiet.examine _))) (fun _ => modCond c _ s)

/-- A change of an input of a set. -/
theorem setInput (now : SetRec → Bool) (level : Bool) (put : SetRec → SetRec) (inRun : Fin 6 → State → State)
    (hf : ∀ g s, Quiet s (inRun g s)) (g : Fin 6) (s : State)
    (hp : ∀ r, (put r).state = r.state := by intro; rfl) : Keeps s (Machine.setInput now level put inRun g s) := by
  have acts : ∀ s, Quiet s (setInputActs inRun g s) := fun s =>
    Quiet.gsdEvent _ s (Quiet.whileInstalled _ g s (by
      split
      · exact hf g s
      · exact Quiet.mapSet g s))
  exact ite (fun _ => rfl' s)
    (fun _ => takeInput _ _ (fun s => modSet g put s hp) (fun s => ofQuiet (acts s)) s)

/-- The expiry of the timer of a set's state. -/
theorem setTimer (st : SetState) (f : Fin 6 → State → State) (hf : ∀ g s, Quiet s (f g s)) (g : Fin 6)
    (s : State) : Keeps s (Machine.setTimer st f g s) :=
  ite (fun _ => takeEvent _ (expire _ _ fun s =>
    ofQuiet (Quiet.gsdEvent _ s (Quiet.whileInstalled f g s (hf g s)))) s) (fun _ => rfl' s)

theorem runSecondDue (g : Fin 6) (s : State) : Keeps s (Machine.runSecondDue g s) :=
  ite (fun _ => advance _ s) (fun _ => rfl' s)

/-- A change of the input of a feeder. -/
theorem feederInput (level : Bool) (inRun : Fin 16 → State → State) (hf : ∀ f s, Quiet s (inRun f s))
    (f : Fin 16) (s : State) : Keeps s (Machine.feederInput level inRun f s) := by
  have acts : ∀ s, Quiet s (feederInputActs inRun f s) := fun s =>
    Quiet.fdcEvent _ s (by
      split
      · exact hf f s
      · exact Quiet.mapFeeder f s)
  exact ite (fun _ => rfl' s)
    (fun _ => takeInput _ _ (fun s => modFeeder f _ s) (fun s => ofQuiet (acts s)) s)

theorem breakerTimer (f : Fin 16) (s : State) : Keeps s (Machine.breakerTimer f s) :=
  ite (fun _ => takeEvent _ (expire _ _ fun s =>
    ofQuiet (Quiet.fdcEvent _ s (Quiet.breakerExpired f s))) s) (fun _ => rfl' s)

theorem requestUnknown (kind tag : Byte) (body : List Byte) (s : State) :
    Keeps s (if isRequestCode kind then s else Machine.takeRequest kind tag body true unknownAct s) :=
  ite (fun _ => rfl' s) (fun _ => takeRequest _ _ _ _ _ (fun s => answer _ _ _ _ s) s)

/-! ### Power -/

/-- After POWER_ON every fact holds, whatever stood before (R163). -/
theorem powerOn (first second : Bool) {s t : State} (h : execPowerOn first second s = .next t) : Keeps s t := by
  obtain rfl := Host.Outcome.next.inj h
  have sets : ∀ g, ((resetSets s.gsd.sets).get g).state = .unavailable := fun g => by
    rw [resetSets, Tab.get_mapIdx]; rfl
  have fifo : (1 : Nat) ≤ 32 := by decide
  have slots : (0 : Nat) ≤ 2 := by decide
  refine ⟨fun _ => fifo, fun _ => slots, fun _ => nofun, fun _ h => absurd rfl h,
    fun _ _ l => Tab.get_const _ l, fun _ => ⟨List.nodup_nil, fun g => ⟨fun h => ?_, fun h => ?_⟩, ?_⟩,
    fun _ => ⟨List.nodup_nil, fun _ h => absurd h List.not_mem_nil⟩⟩
  · exact absurd h List.not_mem_nil
  · cases (sets g).symm.trans h
  · symm
    refine List.countP_eq_zero.2 fun g _ h => ?_
    cases (sets g).symm.trans (of_decide_eq_true h)

theorem resetNAsserted {s t : State} (h : execResetNAsserted s = .next t) : Keeps s t := by
  obtain rfl := Host.Outcome.next.inj h
  exact ⟨id, id, id, id, id, id, id⟩

/-! ### Every command and every step -/

/-- The state that a command answers, where the command is a function of the state. -/
theorem ofNext {s t u : State} (k : Keeps s u) (h : Host.Outcome.next u = (.next t : Answer)) : Keeps s t :=
  Host.Outcome.next.inj h ▸ k

theorem exec (c : Instr) (s t : State) (h : Machine.exec c s = .next t) : Keeps s t := by
  cases c with
  | powerOn a b => exact powerOn a b h
  | resetNAsserted => exact resetNAsserted h
  | identify => exact ofNext (takeRequest _ _ _ _ identifyAct (fun s => answer _ _ _ _ s) s) h
  | read => exact ofNext (takeRequest _ _ _ _ _ (readAct _ _ _) s) h
  | status => exact ofNext (takeRequest _ _ _ _ _ (statusAct _ _ _) s) h
  | pass => exact ofNext (takeRequest _ _ _ _ passAct (fun s => answer _ _ _ _ s) s) h
  | write => exact ofNext (takeRequest _ _ _ _ _ (writeAct _ _ _) s) h
  | commit => exact ofNext (takeRequest _ _ _ _ _ (commitAct _ _ _) s) h
  | tune => exact ofNext (takeRequest _ _ _ _ _ (tuneAct _ _ _) s) h
  | engage => exact ofNext (takeRequest _ _ _ _ _ (engageAct _ _) s) h
  | disengage => exact ofNext (takeRequest _ _ _ _ _ (disengageAct _ _) s) h
  | restart => exact ofNext (takeRequest _ _ _ _ restartAct (fun s => (answer _ _ _ _ s).trans (restartPart _)) s) h
  | safe => exact ofNext (takeRequest _ _ _ _ _ (safeAct _ _) s) h
  | auto => exact ofNext (takeRequest _ _ _ _ _ (autoAct _ _ _) s) h
  | force => exact ofNext (takeRequest _ _ _ _ _ (forceAct _ _ _) s) h
  | clear => exact ofNext (takeRequest _ _ _ _ _ (clearAct _ _ _) s) h
  | ack => exact ofNext (takeRequest _ _ _ _ _ (ackAct _ _ _) s) h
  | bind => exact ofNext (takeRequest _ _ _ _ _ (bindAct _ _ _) s) h
  | unbind => exact ofNext (takeRequest _ _ _ _ _ (unbindAct _ _ _) s) h
  | step => exact ofNext (takeRequest _ _ _ _ _ (stepAct _ _ _) s) h
  | genset => exact ofNext (takeRequest _ _ _ _ _ (gensetAct _ _ _) s) h
  | runtime => exact ofNext (takeRequest _ _ _ _ _ (runtimeAct _ _ _) s) h
  | feeder => exact ofNext (takeRequest _ _ _ _ _ (feederAct _ _ _) s) h
  | plant => exact ofNext (takeRequest _ _ _ _ _ (plantAct _ _ _) s) h
  | blackstart => exact ofNext (takeRequest _ _ _ _ _ (blackstartAct _ _ _) s) h
  | requestUnknown => exact ofNext (requestUnknown _ _ _ s) h
  | hostFrameReceived => exact ofNext (takeEvent _ (hostChars _) s) h
  | hostCharacterTimeout => exact ofNext (takeEvent _ (expire _ _ dropPartial) s) h
  | replySend => exact ofNext (takeEvent _ sendReply s) h
  | noticeSend => exact ofNext (takeEvent _ sendNotice s) h
  | powerFrame => exact ofNext (takeEvent _ (takeBurst _ _ powerAct) s) h
  | busRecord => exact ofNext (takeEvent _ (takeBurst _ _ busAct) s) h
  | busSilenceTimerExpiry => exact ofNext (takeEvent _ (expire _ _ busFellSilent) s) h
  | deadTimerExpiry => exact ofNext (takeEvent _ (expire _ _ busDeclaredDead) s) h
  | balancePass => exact ofNext (takeEvent _ takeNextPass s) h
  | ceilingFrameSend => exact ofNext (takeEvent _ sendCeiling s) h
  | silentFallbackTick => exact ofNext (takeEvent _ silentTickDue s) h
  | faultFallbackTick => exact ofNext (takeEvent _ faultTickDue s) h
  | holdOffExpiry => exact ofNext (takeEvent _ (expire _ _ (holdOffEnded _)) s) h
  | runningRises g => exact ofNext (setInput _ _ _ _ Quiet.runningRisen g s) h
  | runningFalls g => exact ofNext (setInput _ _ _ _ Quiet.runningFallen g s) h
  | breakerRises g => exact ofNext (setInput _ _ _ _ Quiet.setBreakerRisen g s) h
  | breakerFalls g => exact ofNext (setInput _ _ _ _ Quiet.setBreakerFallen g s) h
  | readyRises g => exact ofNext (setInput _ _ _ _ Quiet.readyRisen g s) h
  | readyFalls g => exact ofNext (setInput _ _ _ _ Quiet.readyFallen g s) h
  | crankTimerExpiry g => exact ofNext (setTimer _ _ Quiet.crankExpired g s) h
  | restTimerExpiry g => exact ofNext (setTimer _ _ Quiet.restExpired g s) h
  | syncTimerExpiry g => exact ofNext (setTimer _ _ Quiet.syncExpired g s) h
  | stopTimerExpiry g => exact ofNext (setTimer _ _ Quiet.stopExpired g s) h
  | minRunTimerExpiry g =>
    refine ofNext (takeEvent _ (expire _ _ fun s => ?_) s) h
    exact ofQuiet (Quiet.gsdEvent _ s (Quiet.whileInstalled _ g s (Quiet.modSet g _ s)))
  | runSecond g => exact ofNext (takeEvent _ (runSecondDue g) s) h
  | feederBreakerFalls f => exact ofNext (feederInput _ _ Quiet.feederFallen f s) h
  | feederBreakerRises f => exact ofNext (feederInput _ _ Quiet.feederRisen f s) h
  | breakerTimerExpiry f => exact ofNext (breakerTimer f s) h
  | firstCloseTimerExpiry => exact ofNext (takeEvent _ (expire _ _ fun s => ofQuiet (Quiet.firstCloseExpired s)) s) h
  | energizeTimerExpiry => exact ofNext (takeEvent _ (expire _ _ fun s => ofQuiet (Quiet.energizeExpired s)) s) h
  | energizeLimitTimerExpiry => exact ofNext (takeEvent _ (expire _ _ fun s => ofQuiet (Quiet.limitExpired s)) s) h
  | settleTimerExpiry => exact ofNext (takeEvent _ (expire _ _ fun s => ofQuiet (Quiet.settleExpired s)) s) h
  | scanItemRead => exact ofNext (takeEvent _ readScanItem s) h
  | scanCompletion => exact ofNext (takeEvent _ completeScan s) h
  | sampleFrameReceived => exact ofNext (takeEvent _ (receiveBurst _) s) h

theorem idle (s : State) : Keeps s (Machine.idle s) := by
  unfold Machine.idle
  refine ite (fun _ => rfl' s) fun _ => ite (fun _ => ofQuiet (Quiet.drain _ s)) fun _ => ?_
  split
  · exact advance 1 s
  · exact ⟨id, id, id, id, id, id, id⟩

/-- Every step keeps the facts of Safety.lean: the idle step, and the command in front on the queue's rest. -/
theorem step {s t : State} (h : Machine.step s = .next t) : Keeps s t := by
  unfold Machine.step at h; split at h
  · exact ofNext (idle s) h
  · next c rest _ =>
    have k := exec c { s with pending := rest } t h
    exact ⟨k.fifo, k.slots, k.zero, k.grant, k.active, k.crank, k.restore⟩

end Keeps

/-- Settles O8: both bounds are among the facts every step keeps. -/
theorem fifoAndBufferStayBounded : Obligations.FifoAndBufferStayBounded := fun _ _ ⟨fifo, slots⟩ h =>
  have k := Keeps.step h
  ⟨k.fifo fifo, k.slots slots⟩

/-- Settles O9. -/
theorem forcedZeroCeilingsStayZero : Obligations.ForcedZeroCeilingsStayZero := fun _ _ zero h =>
  (Keeps.step h).zero zero

/-- Settles O10. -/
theorem grantStaysInFirst : Obligations.GrantStaysInFirst := fun _ _ grant h => (Keeps.step h).grant grant

/-- Settles O11. -/
theorem activeSetStaysEmptyOutsideRun : Obligations.ActiveSetStaysEmptyOutsideRun := fun _ _ active h =>
  (Keeps.step h).active active

/-- Settles O12. -/
theorem crankQueueAndPermitsStayInStep : Obligations.CrankQueueAndPermitsStayInStep := fun _ _ crank h =>
  (Keeps.step h).crank crank

end Sys2Proof.Machine

/-!
SUPPORT. One step, POWER_ON, RESET_N low, and the state after reset (R163; log entries 1 and 8).
-/
namespace Sys2Proof.Machine

/-- Settles O1: the front command is the one that `step` matches. -/
theorem stepRunsFrontCommand : Obligations.StepRunsFrontCommand := fun _ _ _ => rfl

/-! ### POWER_ON (R163) -/

theorem resetSets_get (t : Tab 6 SetRec) (g : Fin 6) :
    (resetSets t).get g = { SetRec.initial with
      running := (t.get g).running, breaker := (t.get g).breaker, ready := (t.get g).ready } := by
  rw [resetSets, Tab.get_mapIdx]

theorem resetFeeders_get (t : Tab 16 FeederRec) (f : Fin 16) :
    (resetFeeders t).get f = { FeederRec.initial with breaker := (t.get f).breaker } := by
  rw [resetFeeders, Tab.get_mapIdx]

/-- Every item of the image of a function on the items holds the function's value. -/
theorem Image.get_ofFn (v : ItemName → Int) (k : ItemName) : (Image.ofFn v).get k = v k := by
  cases k <;> simp only [Image.ofFn, Image.get, Tab.get_ofFn]

/-- Settles O5: each block is at its initial value; the rows of the sets and feeders keep their inputs. -/
theorem powerOnResetsEveryBlock : Obligations.PowerOnResetsEveryBlock := by
  intro s first second
  refine ⟨_, rfl, rfl, rfl, rfl, by cases first <;> cases second <;> rfl, fun h => Tab.get_const _ h, ?_⟩
  refine ⟨rfl, rfl, rfl, rfl, rfl, rfl, rfl, rfl, rfl, rfl, rfl, rfl, rfl, fun p => Tab.get_const _ p,
    fun p => Tab.get_const _ p, rfl, rfl, rfl, rfl, rfl, fun c => Tab.get_const _ c, rfl,
    fun l => Tab.get_const _ l, rfl, rfl, fun n => Tab.get_const _ n, fun g => resetSets_get _ g, rfl, rfl,
    fun f => resetFeeders_get _ f, rfl, rfl, rfl, rfl, rfl, fun g => Tab.get_const _ g, ?_⟩
  exact ⟨rfl, rfl, rfl, rfl, rfl, rfl, rfl, rfl, fun k => Image.get_ofFn _ k, rfl, rfl, rfl, rfl, rfl, rfl, rfl,
    rfl, rfl, rfl⟩

/-! ### RESET_N low (R163) -/

/-- Settles O6: every line is gated by the reset level. -/
theorem resetLowReleasesEveryLine : Obligations.ResetLowReleasesEveryLine := by
  refine ⟨fun _ => rfl, fun s low => ?_⟩
  simp [State.startLine, State.stopLine, State.deadbusLine, State.tripLine, State.closeLine, State.alarmA,
    State.alarmB, low]

section
variable {s : State} (low : s.resetLow = true)
include low

theorem takeRequest_low (kind tag : Byte) (body : List Byte) (fits : Bool) (act : Reply → State → State) :
    takeRequest kind tag body fits act s = s := if_pos low

theorem takeEvent_low (f : State → State) : takeEvent f s = s := if_pos low

theorem takeInput_low (level f : State → State) : takeInput level f s = level s := if_pos low

/-- The input of a set takes its level alone; a level that it has already is written again. -/
theorem setInput_low {now : SetRec → Bool} {level : Bool} {put : SetRec → SetRec} {g : Fin 6}
    (inRun : Fin 6 → State → State) (same : ∀ r, now r = level → put r = r) :
    setInput now level put inRun g s = modSet g put s := by
  unfold setInput; split
  · next stays =>
    have rows : s.gsd.sets.modify g put = s.gsd.sets := Tab.ext_get fun i => by
      by_cases e : g = i
      · subst e; rw [Tab.get_modify_self]; exact same _ stays
      · exact Tab.get_modify_ne _ _ _ _ e
    rw [modSet, rows]
  · exact takeInput_low low _ _

/-- The input of a feeder takes its level alone. -/
theorem feederInput_low {level : Bool} {f : Fin 16} (inRun : Fin 16 → State → State) :
    feederInput level inRun f s = modFeeder f (fun r => { r with breaker := level }) s := by
  unfold feederInput; split
  · next stays =>
    have rows : s.fdc.feeders.modify f (fun r => { r with breaker := level }) = s.fdc.feeders :=
      Tab.ext_get fun i => by
        by_cases e : f = i
        · subst e; rw [Tab.get_modify_self]; exact stays ▸ rfl
        · exact Tab.get_modify_ne _ _ _ _ e
    rw [modFeeder, rows]
  · exact takeInput_low low _ _

theorem setTimer_low (st : SetState) (f : Fin 6 → State → State) (g : Fin 6) : setTimer st f g s = s := by
  unfold setTimer; split
  · exact takeEvent_low low _
  · rfl

theorem breakerTimer_low (f : Fin 16) : breakerTimer f s = s := by
  unfold breakerTimer; split
  · exact takeEvent_low low _
  · rfl

end

/-- Settles O7: no request and no event is taken, and an input's level alone changes. -/
theorem nothingIsTakenWhileResetIsLow : Obligations.NothingIsTakenWhileResetIsLow := by
  intro s c low notReset notPower
  cases c with
  | powerOn a b => exact absurd rfl (notPower a b)
  | resetNAsserted => exact absurd rfl notReset
  | runningRises g => exact congrArg Host.Outcome.next (setInput_low low _ fun r h => h ▸ rfl)
  | runningFalls g => exact congrArg Host.Outcome.next (setInput_low low _ fun r h => h ▸ rfl)
  | breakerRises g => exact congrArg Host.Outcome.next (setInput_low low _ fun r h => h ▸ rfl)
  | breakerFalls g => exact congrArg Host.Outcome.next (setInput_low low _ fun r h => h ▸ rfl)
  | readyRises g => exact congrArg Host.Outcome.next (setInput_low low _ fun r h => h ▸ rfl)
  | readyFalls g => exact congrArg Host.Outcome.next (setInput_low low _ fun r h => h ▸ rfl)
  | feederBreakerFalls f => exact congrArg Host.Outcome.next (feederInput_low low _)
  | feederBreakerRises f => exact congrArg Host.Outcome.next (feederInput_low low _)
  | crankTimerExpiry g => exact congrArg Host.Outcome.next (setTimer_low low _ _ g)
  | restTimerExpiry g => exact congrArg Host.Outcome.next (setTimer_low low _ _ g)
  | syncTimerExpiry g => exact congrArg Host.Outcome.next (setTimer_low low _ _ g)
  | stopTimerExpiry g => exact congrArg Host.Outcome.next (setTimer_low low _ _ g)
  | breakerTimerExpiry f => exact congrArg Host.Outcome.next (breakerTimer_low low f)
  | requestUnknown kind tag body =>
    refine congrArg Host.Outcome.next (?_ : (if isRequestCode kind then s else _) = s)
    split
    · rfl
    · exact takeRequest_low low _ _ _ _ _
  | hostFrameReceived _ | hostCharacterTimeout | replySend | noticeSend | powerFrame _ | busRecord _
  | busSilenceTimerExpiry | deadTimerExpiry | balancePass | ceilingFrameSend | silentFallbackTick
  | faultFallbackTick | holdOffExpiry _ | minRunTimerExpiry _ | runSecond _ | firstCloseTimerExpiry
  | energizeTimerExpiry | energizeLimitTimerExpiry | settleTimerExpiry | scanItemRead | scanCompletion
  | sampleFrameReceived _ => exact congrArg Host.Outcome.next (takeEvent_low low _)
  | _ => exact congrArg Host.Outcome.next (takeRequest_low low _ _ _ _ _)

/-! ### The state after reset -/

/-- Settles O14: the bounds are read off; no set is CRANKING, no queue holds anything, no feeder is OPEN_SHED. -/
theorem invariantsHoldAtReset : Obligations.InvariantsHoldAtReset := by
  have sets : ∀ g, (State.reset.gsd.sets.get g).state = .unavailable := fun g => by
    show ((Tab.const 6 SetRec.initial).get g).state = _
    rw [Tab.get_const]; rfl
  have feeders : ∀ f, (State.reset.fdc.feeders.get f).state = .outOfService := fun f => by
    show ((Tab.const 16 FeederRec.initial).get f).state = _
    rw [Tab.get_const]; rfl
  refine ⟨⟨by decide, by decide⟩, nofun, fun h => absurd rfl h, fun _ l => Tab.get_const _ l,
    ⟨List.nodup_nil, fun g => ⟨fun h => absurd h List.not_mem_nil, fun h => ?_⟩, ?_⟩,
    ⟨List.nodup_nil, fun _ h => absurd h List.not_mem_nil⟩,
    ⟨List.nodup_nil, fun f => ⟨fun h => absurd h List.not_mem_nil, fun h => ?_⟩, fun f _ => feeders f⟩⟩
  · cases (sets g).symm.trans h
  · symm
    refine List.countP_eq_zero.2 fun g _ h => ?_
    cases (sets g).symm.trans (of_decide_eq_true h)
  · cases (feeders f).symm.trans h

end Sys2Proof.Machine

/-!
SUPPORT. Which parts of the state an operation writes, said once for each operation: `Walk S s t` says that `t` follows `s`
by notices and by updates of the parts in `S` alone. What an operation leaves unchanged is then read off `S` (the frame
lemmas at the end of the first section).
-/
namespace Sys2Proof.Machine

/-- The parts of the state that an operation may write, the notice FIFO aside: `store` is SST but for its image, `link` is
HLC. -/
inductive Part where
  | tick | srx | ben | ctx | rsc | chains | gsd | fdc | bss | store | image | link | handovers
  deriving DecidableEq

/-- `t` follows `s` by notices and by updates of the parts in `S`. -/
inductive Walk (S : List Part) : State → State → Prop
  | stay (s : State) : Walk S s s
  | trans {s t u : State} : Walk S s t → Walk S t u → Walk S s u
  | notify (k : NoticeKind) (n : Nat) (vs : List Word) (s : State) : Walk S s (Machine.notify k n vs s)
  | tick (h : .tick ∈ S) (s : State) (x : Tick) : Walk S s { s with tick := x }
  | srx (h : .srx ∈ S) (s : State) (x : Srx) : Walk S s { s with srx := x }
  | ben (h : .ben ∈ S) (s : State) (x : Ben) : Walk S s { s with ben := x }
  | ctx (h : .ctx ∈ S) (s : State) (x : Ctx) : Walk S s { s with ctx := x }
  | rsc (h : .rsc ∈ S) (s : State) (x : Rsc) : Walk S s { s with rsc := x }
  | chains (h : .chains ∈ S) (s : State) (x : Tab 6 Chain) : Walk S s { s with chains := x }
  | gsd (h : .gsd ∈ S) (s : State) (x : Gsd) : Walk S s { s with gsd := x }
  | fdc (h : .fdc ∈ S) (s : State) (x : Fdc) : Walk S s { s with fdc := x }
  | bss (h : .bss ∈ S) (s : State) (x : Bss) : Walk S s { s with bss := x }
  | store (h : .store ∈ S) (s : State) (x : Sst) (same : x.image = s.sst.image) : Walk S s { s with sst := x }
  | image (h : .image ∈ S) (s : State) (x : Image) : Walk S s { s with sst.image := x }
  | link (h : .link ∈ S) (s : State) (x : Hlc) : Walk S s { s with hlc := x }
  | handovers (h : .handovers ∈ S) (s : State) (x : List Handover) : Walk S s { s with handovers := x }

namespace Walk
variable {S : List Part} {s t : State}

/-! ### What a walk leaves unchanged -/

theorem resetLow_eq (w : Walk S s t) : t.resetLow = s.resetLow := by
  induction w with
  | trans _ _ first second => exact second.trans first
  | notify => exact notify_resetLow ..
  | _ => rfl

theorem lineRate_eq (w : Walk S s t) : t.lineRate = s.lineRate := by
  induction w with
  | trans _ _ first second => exact second.trans first
  | notify => exact notify_lineRate ..
  | _ => rfl

theorem pending_eq (w : Walk S s t) : t.pending = s.pending := by
  induction w with
  | trans _ _ first second => exact second.trans first
  | notify => exact notify_pending ..
  | _ => rfl

theorem tick_eq (w : Walk S s t) (htick : .tick ∉ S) : t.tick = s.tick := by
  induction w with
  | trans _ _ first second => exact second.trans first
  | notify => exact notify_tick ..
  | tick k => exact absurd k htick
  | _ => rfl

theorem srx_eq (w : Walk S s t) (hsrx : .srx ∉ S) : t.srx = s.srx := by
  induction w with
  | trans _ _ first second => exact second.trans first
  | notify => exact notify_srx ..
  | srx k => exact absurd k hsrx
  | _ => rfl

theorem ben_eq (w : Walk S s t) (hben : .ben ∉ S) : t.ben = s.ben := by
  induction w with
  | trans _ _ first second => exact second.trans first
  | notify => exact notify_ben ..
  | ben k => exact absurd k hben
  | _ => rfl

theorem ctx_eq (w : Walk S s t) (hctx : .ctx ∉ S) : t.ctx = s.ctx := by
  induction w with
  | trans _ _ first second => exact second.trans first
  | notify => exact notify_ctx ..
  | ctx k => exact absurd k hctx
  | _ => rfl

theorem rsc_eq (w : Walk S s t) (hrsc : .rsc ∉ S) : t.rsc = s.rsc := by
  induction w with
  | trans _ _ first second => exact second.trans first
  | notify => exact notify_rsc ..
  | rsc k => exact absurd k hrsc
  | _ => rfl

theorem chains_eq (w : Walk S s t) (hchains : .chains ∉ S) : t.chains = s.chains := by
  induction w with
  | trans _ _ first second => exact second.trans first
  | notify => exact notify_chains ..
  | chains k => exact absurd k hchains
  | _ => rfl

theorem gsd_eq (w : Walk S s t) (hgsd : .gsd ∉ S) : t.gsd = s.gsd := by
  induction w with
  | trans _ _ first second => exact second.trans first
  | notify => exact notify_gsd ..
  | gsd k => exact absurd k hgsd
  | _ => rfl

theorem fdc_eq (w : Walk S s t) (hfdc : .fdc ∉ S) : t.fdc = s.fdc := by
  induction w with
  | trans _ _ first second => exact second.trans first
  | notify => exact notify_fdc ..
  | fdc k => exact absurd k hfdc
  | _ => rfl

theorem bss_eq (w : Walk S s t) (hbss : .bss ∉ S) : t.bss = s.bss := by
  induction w with
  | trans _ _ first second => exact second.trans first
  | notify => exact notify_bss ..
  | bss k => exact absurd k hbss
  | _ => rfl

theorem handovers_eq (w : Walk S s t) (hhandovers : .handovers ∉ S) : t.handovers = s.handovers := by
  induction w with
  | trans _ _ first second => exact second.trans first
  | notify => exact notify_handovers ..
  | handovers k => exact absurd k hhandovers
  | _ => rfl

theorem sst_eq (w : Walk S s t) (hstore : .store ∉ S) (himage : .image ∉ S) : t.sst = s.sst := by
  induction w with
  | trans _ _ first second => exact second.trans first
  | notify => exact notify_sst ..
  | store k => exact absurd k hstore
  | image k => exact absurd k himage
  | _ => rfl

theorem image_eq (w : Walk S s t) (himage : .image ∉ S) : t.sst.image = s.sst.image := by
  induction w with
  | trans _ _ first second => exact second.trans first
  | notify => rw [notify_sst]
  | image k => exact absurd k himage
  | store _ _ _ same => exact same
  | _ => rfl

theorem reply_eq (w : Walk S s t) (hlink : .link ∉ S) : t.hlc.reply = s.hlc.reply := by
  induction w with
  | trans _ _ first second => exact second.trans first
  | notify => exact notify_hlc_reply ..
  | link k => exact absurd k hlink
  | _ => rfl

theorem slots_eq (w : Walk S s t) (hlink : .link ∉ S) : t.hlc.slots = s.hlc.slots := by
  induction w with
  | trans _ _ first second => exact second.trans first
  | notify => exact notify_hlc_slots ..
  | link k => exact absurd k hlink
  | _ => rfl

theorem partialFrame_eq (w : Walk S s t) (hlink : .link ∉ S) : t.hlc.partialFrame = s.hlc.partialFrame := by
  induction w with
  | trans _ _ first second => exact second.trans first
  | notify => exact notify_hlc_partialFrame ..
  | link k => exact absurd k hlink
  | _ => rfl

theorem sequence_eq (w : Walk S s t) (hlink : .link ∉ S) : t.hlc.sequence = s.hlc.sequence := by
  induction w with
  | trans _ _ first second => exact second.trans first
  | notify => exact notify_hlc_sequence ..
  | link k => exact absurd k hlink
  | _ => rfl

theorem line_eq (w : Walk S s t) (hlink : .link ∉ S) : t.hlc.line = s.hlc.line := by
  induction w with
  | trans _ _ first second => exact second.trans first
  | notify => exact notify_hlc_line ..
  | link k => exact absurd k hlink
  | _ => rfl

/-- Notices that stand keep their places while the link is not written (R188). -/
theorem notices_prefix (w : Walk S s t) (hlink : .link ∉ S) : s.hlc.notices <+: t.hlc.notices := by
  induction w with
  | trans _ _ first second => exact first.trans second
  | notify =>
    rw [notify_notices]; split
    · exact List.prefix_append _ _
    · exact List.prefix_rfl
  | link k => exact absurd k hlink
  | _ => exact List.prefix_rfl

/-- More parts may be written than are. -/
theorem mono {T : List Part} (w : Walk S s t) (sub : S ⊆ T) : Walk T s t := by
  induction w with
  | stay => exact stay _
  | trans _ _ first second => exact first.trans second
  | notify => exact notify _ _ _ _
  | tick h => exact tick (sub h) _ _
  | srx h => exact srx (sub h) _ _
  | ben h => exact ben (sub h) _ _
  | ctx h => exact ctx (sub h) _ _
  | rsc h => exact rsc (sub h) _ _
  | chains h => exact chains (sub h) _ _
  | gsd h => exact gsd (sub h) _ _
  | fdc h => exact fdc (sub h) _ _
  | bss h => exact bss (sub h) _ _
  | store h _ _ same => exact store (sub h) _ _ same
  | image h => exact image (sub h) _ _
  | link h => exact link (sub h) _ _
  | handovers h => exact handovers (sub h) _ _

/-! ### Combining walks -/

theorem ite {p : Prop} [Decidable p] {f g : State} (hf : p → Walk S s f) (hg : ¬p → Walk S s g) :
    Walk S s (if p then f else g) := by
  split
  · exact hf ‹_›
  · exact hg ‹_›

theorem foldl {α : Type} (l : List α) (f : State → α → State) (hf : ∀ s a, Walk S s (f s a)) (s : State) :
    Walk S s (l.foldl f s) := by
  induction l generalizing s with
  | nil => exact stay s
  | cons a l ih => exact (hf s a).trans (ih _)

theorem forAll (n : Nat) (f : Fin n → State → State) (hf : ∀ i s, Walk S s (f i s)) (s : State) :
    Walk S s (Machine.forAll n f s) := foldl _ _ (fun s i => hf i s) s

end Walk

namespace Walk
variable {S : List Part}

/-! ### RSC -/

section
variable (rscS : .rsc ∈ S)
include rscS

theorem modCond (c : Fin 24) (f : CondRow → CondRow) (s : State) : Walk S s (Machine.modCond c f s) :=
  rsc rscS s _

theorem setLatch (c : Fin 24) (l : Latch) (s : State) : Walk S s (Machine.setLatch c l s) :=
  ite (fun _ => stay s) (fun _ => (modCond rscS c _ s).trans (notify _ _ _ _))

theorem moveLatch (c : Fin 24) (b : Bool) (s : State) : Walk S s (Machine.moveLatch c b s) :=
  ite (fun _ => stay s) (fun _ => setLatch rscS _ _ s)

theorem withTruth (c : Fin 24) (f : State → State) (hf : ∀ s, Walk S s (f s)) (s : State) :
    Walk S s (Machine.withTruth c f s) :=
  ite (fun _ => hf s) (fun _ => (hf s).trans (moveLatch rscS _ _ _))

theorem setFlag (c : Fin 24) (x : Option Nat) (s : State) : Walk S s (Machine.setFlag c x s) :=
  withTruth rscS c _ (modCond rscS c _) s

theorem clearFlag (c : Fin 24) (s : State) : Walk S s (Machine.clearFlag c s) :=
  withTruth rscS c _ (modCond rscS c _) s

theorem routeChanged (c : Fin 24) (old new : Nat) (s : State) : Walk S s (Machine.routeChanged c old new s) :=
  ite (fun _ => ite (fun _ => setLatch rscS _ _ s) (fun _ => stay s))
    (fun _ => ite (fun _ => setLatch rscS _ _ s) (fun _ => stay s))

theorem presentValue (c : Fin 24) (v : Bool) (s : State) : Walk S s (Machine.presentValue c v s) := by
  unfold Machine.presentValue; dsimp only; split
  · exact (withTruth rscS c _ (modCond rscS c _) s).trans (rsc rscS _ _)
  · exact withTruth rscS c _ (modCond rscS c _) s

theorem clearBlackStartFlags (s : State) : Walk S s (Machine.clearBlackStartFlags s) :=
  forAll 24 _ (fun c s => ite (fun _ => clearFlag rscS c s) (fun _ => stay s)) s

theorem setFaultLatch (l : Latch) (s : State) : Walk S s (Machine.setFaultLatch l s) :=
  ite (fun _ => stay s) (fun _ => (rsc rscS s { s.rsc with faultLatch := l }).trans (notify _ _ _ _))

theorem ackAll (s : State) : Walk S s (Machine.ackAll s) := by
  rw [ackAll_eq]
  exact (forAll 24 _ (fun c s => setLatch rscS c _ s) s).trans (setFaultLatch rscS _ _)

theorem clearActive (s : State) : Walk S s (Machine.clearActive s) := rsc rscS s _

theorem idleHoldOffs (s : State) : Walk S s (Machine.idleHoldOffs s) := rsc rscS s _

end

section
variable (rscS : .rsc ∈ S) (outS : .handovers ∈ S)
include outS

theorem emit (m : Handover) (s : State) : Walk S s (Machine.emit m s) := handovers outS s _

include rscS

theorem accept (c : Fin 24) (s : State) : Walk S s (Machine.accept c s) :=
  (((clearFlag rscS c s).trans (rsc rscS _ _)).trans (notify _ _ _ _)).trans (emit outS _ _)

theorem examine (s : State) : Walk S s (Machine.examine s) := by
  unfold Machine.examine; split
  · split
    · exact stay s
    · exact ite (fun _ => accept rscS outS _ s) (fun _ => stay s)
  · exact stay s

theorem present (vs : List (Fin 24 × Bool)) (s : State) : Walk S s (Machine.present vs s) := by
  have rows := foldl vs (fun s p => Machine.presentValue p.1 p.2 s) (fun s p => presentValue rscS _ _ s) s
  exact ite (fun _ => rows.trans (examine rscS outS _)) (fun _ => rows)

theorem takeRaise (c : Fin 24) (n : Nat) (s : State) : Walk S s (Machine.takeRaise c n s) :=
  ite (fun _ => (setFlag rscS _ _ s).trans (examine rscS outS _)) (fun _ => stay s)

theorem finishEntry (c : Fin 24) (o : StepOutcome) (l : Fin 7) (e : ActiveEntry) (s : State) :
    Walk S s (Machine.finishEntry c o l e s) := by
  unfold Machine.finishEntry; dsimp only
  refine (Walk.trans ?_ (notify _ _ _ _)).trans (examine rscS outS _)
  have start : ∀ d, Walk S s (if c = 0 ∧ o = .done then
      Machine.clearBlackStartFlags (Machine.modCond c (fun r => { r with holdOff := d }) s)
      else Machine.modCond c (fun r => { r with holdOff := d }) s) := fun d =>
    ite (fun _ => (modCond rscS c _ s).trans (clearBlackStartFlags rscS _)) (fun _ => modCond rscS c _ s)
  exact ite (fun _ => (start _).trans (rsc rscS _ _)) (fun _ => start _)

theorem complete (c : Fin 24) (o : StepOutcome) (s : State) : Walk S s (Machine.complete c o s) := by
  unfold Machine.complete; split
  · exact stay s
  · split
    · exact stay s
    · exact (rsc rscS s _).trans (finishEntry rscS outS _ _ _ _ _)

end

/-! ### GSD -/

section
variable (gsdS : .gsd ∈ S)
include gsdS

theorem modSet (g : Fin 6) (f : SetRec → SetRec) (s : State) : Walk S s (Machine.modSet g f s) := gsd gsdS s _

theorem gsdEvent (f : State → State) (s : State) (hf : Walk S s (f s)) : Walk S s (Machine.gsdEvent f s) :=
  hf.trans (gsd gsdS _ _)

theorem dropQueue (s : State) : Walk S s (Machine.dropQueue s) := gsd gsdS s _

theorem releaseSets (s : State) : Walk S s (Machine.releaseSets s) := gsd gsdS s _

end

section
variable (gsdS : .gsd ∈ S) (outS : .handovers ∈ S)
include outS

theorem tellBss (g : Fin 6) (a b : SetState) (s : State) : Walk S s (Machine.tellBss g a b s) :=
  ite (fun _ => emit outS _ s) (fun _ => stay s)

theorem reportStart (o : Origin) (g : Fin 6) (ok : Bool) (s : State) : Walk S s (Machine.reportStart o g ok s) := by
  cases o with
  | chain | response | blackstart => exact emit outS _ s
  | host | manual => exact stay s

theorem reportStop (o : Origin) (g : Fin 6) (st : SetState) (s : State) :
    Walk S s (Machine.reportStop o g st s) := by
  cases o with
  | chain | response => exact emit outS _ s
  | blackstart | host | manual => exact stay s

theorem raiseSet (c : Fin 24) (g : Fin 6) (s : State) : Walk S s (Machine.raiseSet c g s) := emit outS _ s

include gsdS

theorem endStart (g : Fin 6) (st : SetState) (s : State) : Walk S s (Machine.endStart g st s) := by
  unfold Machine.endStart; split
  · exact stay s
  · exact ite (fun _ => (modSet gsdS g _ s).trans (reportStart outS _ _ _ _)) (fun _ => stay s)

theorem endStop (g : Fin 6) (a b : SetState) (s : State) : Walk S s (Machine.endStop g a b s) := by
  unfold Machine.endStop; split
  · exact stay s
  · exact ite (fun _ => (modSet gsdS g _ s).trans (reportStop outS _ _ _ _)) (fun _ => stay s)

theorem moveSet (g : Fin 6) (new : SetState) (s : State) : Walk S s (Machine.moveSet g new s) := by
  refine ite (fun _ => stay s) fun _ => ?_
  have placed := gsd gsdS s (crankPlace g (s.setRec g).state new s.gsd)
  refine ((Walk.trans ?_ (tellBss outS _ _ _ _)).trans (endStart gsdS outS _ _ _)).trans (endStop gsdS outS _ _ _ _)
  exact (placed.trans (modSet gsdS g _ _)).trans (notify _ _ _ _)

theorem serveUpTo (n : Nat) (s : State) : Walk S s (Machine.serveUpTo n s) := by
  induction n generalizing s with
  | zero => exact stay s
  | succ n ih =>
    unfold Machine.serveUpTo; split
    · exact stay s
    · exact ite (fun _ => (moveSet gsdS outS _ _ s).trans (ih _)) (fun _ => stay s)

theorem serveQueue (s : State) : Walk S s (Machine.serveQueue s) := serveUpTo gsdS outS 3 s

theorem startSet (g : Fin 6) (o : Origin) (s : State) : Walk S s (Machine.startSet g o s) :=
  ite (fun _ => gsdEvent gsdS _ s (((modSet gsdS g _ s).trans (moveSet gsdS outS _ _ _)).trans
    (serveQueue gsdS outS _))) (fun _ => reportStart outS _ _ _ s)

theorem stopSet (g : Fin 6) (o : Option Origin) (s : State) : Walk S s (Machine.stopSet g o s) :=
  gsdEvent gsdS _ s ((modSet gsdS g _ s).trans (moveSet gsdS outS _ _ _))

theorem startNext (c : Fin 24) (s : State) : Walk S s (Machine.startNext c s) := by
  unfold Machine.startNext; split
  · exact emit outS _ s
  · exact startSet gsdS outS _ _ s

theorem stopNext (c : Fin 24) (s : State) : Walk S s (Machine.stopNext c s) := by
  unfold Machine.stopNext; split
  · exact emit outS _ s
  · exact ite (fun _ => emit outS _ s) (fun _ => stopSet gsdS outS _ _ s)

theorem enterRunUp (g : Fin 6) (s : State) : Walk S s (Machine.enterRunUp g s) :=
  ite (fun _ => (moveSet gsdS outS _ _ s).trans (moveSet gsdS outS _ _ _)) (fun _ => moveSet gsdS outS _ _ s)

theorem restOrLockout (g : Fin 6) (s : State) : Walk S s (Machine.restOrLockout g s) :=
  ite (fun _ => moveSet gsdS outS _ _ s) (fun _ => (moveSet gsdS outS _ _ s).trans (raiseSet outS _ _ _))

theorem giveUp (g : Fin 6) (s : State) : Walk S s (Machine.giveUp g s) := moveSet gsdS outS _ _ s

theorem mapSet (g : Fin 6) (s : State) : Walk S s (Machine.mapSet g s) := moveSet gsdS outS _ _ s

theorem runningRisen (g : Fin 6) (s : State) : Walk S s (Machine.runningRisen g s) := by
  have entered := enterRunUp gsdS outS g s
  unfold Machine.runningRisen; split
  case h_1 | h_2 | h_5 => exact entered
  case h_3 | h_4 => exact entered.trans (serveQueue gsdS outS _)
  all_goals exact stay s

theorem runningFallen (g : Fin 6) (s : State) : Walk S s (Machine.runningFallen g s) := by
  have q := modSet gsdS g (fun r => { r with retry := false }) s
  unfold Machine.runningFallen; dsimp only; split
  case h_1 => exact ite (fun _ => q.trans (restOrLockout gsdS outS _ _)) (fun _ => q.trans (moveSet gsdS outS _ _ _))
  case h_2 => exact (raiseSet outS _ _ s).trans (moveSet gsdS outS _ _ _)
  case h_3 => exact moveSet gsdS outS _ _ s
  all_goals exact stay s

theorem setBreakerRisen (g : Fin 6) (s : State) : Walk S s (Machine.setBreakerRisen g s) :=
  ite (fun _ => moveSet gsdS outS _ _ s) (fun _ => stay s)

theorem setBreakerFallen (g : Fin 6) (s : State) : Walk S s (Machine.setBreakerFallen g s) :=
  ite (fun _ => (raiseSet outS _ _ s).trans (moveSet gsdS outS _ _ _)) (fun _ => stay s)

theorem readyRisen (g : Fin 6) (s : State) : Walk S s (Machine.readyRisen g s) :=
  ite (fun _ => moveSet gsdS outS _ _ s) (fun _ => stay s)

theorem readyFallen (g : Fin 6) (s : State) : Walk S s (Machine.readyFallen g s) := by
  have moved := moveSet gsdS outS g .unavailable s
  unfold Machine.readyFallen; split
  case h_1 | h_2 | h_3 => exact moved
  case h_4 => exact moved.trans (serveQueue gsdS outS _)
  all_goals exact stay s

theorem crankExpired (g : Fin 6) (s : State) : Walk S s (Machine.crankExpired g s) :=
  ((modSet gsdS g _ s).trans (restOrLockout gsdS outS _ _)).trans (serveQueue gsdS outS _)

theorem restExpired (g : Fin 6) (s : State) : Walk S s (Machine.restExpired g s) :=
  (moveSet gsdS outS _ _ s).trans (serveQueue gsdS outS _)

theorem syncExpired (g : Fin 6) (s : State) : Walk S s (Machine.syncExpired g s) :=
  (modSet gsdS g _ s).trans (moveSet gsdS outS _ _ _)

theorem stopExpired (g : Fin 6) (s : State) : Walk S s (Machine.stopExpired g s) :=
  ((modSet gsdS g _ s).trans (moveSet gsdS outS _ _ _)).trans (raiseSet outS _ _ _)

theorem holdUnavailable (g : Fin 6) (s : State) : Walk S s (Machine.holdUnavailable g s) := by
  have q := (modSet gsdS g (fun r => { r with retry := false }) s).trans (moveSet gsdS outS g .unavailable _)
  exact ite (fun _ => stay s) (fun _ => ite (fun _ => q.trans (serveQueue gsdS outS _)) (fun _ => q))

theorem whileInstalled (f : Fin 6 → State → State) (g : Fin 6) (s : State) (hf : Walk S s (f g s)) :
    Walk S s (Machine.whileInstalled f g s) :=
  ite (fun _ => hf) (fun _ => holdUnavailable gsdS outS g s)

theorem remapSet (g : Fin 6) (s : State) : Walk S s (Machine.remapSet g s) :=
  ((modSet gsdS g _ s).trans (mapSet gsdS outS g _)).trans (modSet gsdS g _ _)

theorem gsdEngage (s : State) : Walk S s (Machine.gsdEngage s) :=
  gsdEvent gsdS _ s (forAll 6 _ (remapSet gsdS outS) s)

theorem gsdAbandon (s : State) : Walk S s (Machine.gsdAbandon s) :=
  gsdEvent gsdS _ s ((((dropQueue gsdS s).trans (releaseSets gsdS _)).trans
    (forAll 6 _ (remapSet gsdS outS) _)).trans (dropQueue gsdS _))

theorem withdrawSets (s : State) : Walk S s (Machine.withdrawSets s) :=
  gsdEvent gsdS _ s (forAll 6 _ (fun _ s => ite (fun _ => giveUp gsdS outS _ s) (fun _ => stay s)) s)

theorem stopAllSets (s : State) : Walk S s (Machine.stopAllSets s) :=
  forAll 6 _ (fun _ s => ite (fun _ => stopSet gsdS outS _ _ s) (fun _ => stay s)) s

theorem moveOrNotify (g : Fin 6) (st : SetState) (s : State) : Walk S s (Machine.moveOrNotify g st s) :=
  ite (fun _ => notify _ _ _ s) (fun _ => moveSet gsdS outS _ _ s)

theorem setAction (a : SetAction) (g : Fin 6) {s t : State} (h : Machine.setAction a g s = some t) :
    Walk S s t := by
  cases a with
  | start =>
    simp only [Machine.setAction, manualStart] at h
    split at h <;> cases h
    exact startSet gsdS outS _ _ s
  | stop =>
    have given := giveUp gsdS outS g s
    simp only [Machine.setAction, manualStop] at h
    split at h <;> cases h
    · exact gsdEvent gsdS _ s given
    · exact gsdEvent gsdS _ s given
    · exact gsdEvent gsdS _ s (given.trans (serveQueue gsdS outS _))
    · exact stopSet gsdS outS g none s
    · exact stopSet gsdS outS g none s
  | takeOut =>
    simp only [Machine.setAction, outOfServiceSet] at h
    split at h
    · split at h <;> cases h
      · exact stay s
      · exact gsdEvent gsdS _ s ((modSet gsdS g _ s).trans (moveOrNotify gsdS outS _ _ _))
    · cases h
  | bringIn =>
    simp only [Machine.setAction, intoServiceSet] at h
    split at h <;> cases h
    · exact gsdEvent gsdS _ s ((modSet gsdS g (fun r => { r with outOfService := false }) s).trans
        (moveOrNotify gsdS outS _ _ _))
    · exact stay s
  | clearLockout =>
    simp only [Machine.setAction, Machine.clearLockout] at h
    split at h <;> cases h
    exact gsdEvent gsdS _ s ((modSet gsdS g _ s).trans (mapSet gsdS outS _ _))

end

/-! ### FDC -/

section
variable (fdcS : .fdc ∈ S)
include fdcS

theorem modFeeder (i : Fin 16) (f : FeederRec → FeederRec) (s : State) : Walk S s (Machine.modFeeder i f s) :=
  fdc fdcS s _

theorem fdcEvent (f : State → State) (s : State) (hf : Walk S s (f s)) : Walk S s (Machine.fdcEvent f s) :=
  hf.trans (fdc fdcS _ _)

theorem moveFeeder (f : Fin 16) (new : FeederState) (s : State) : Walk S s (Machine.moveFeeder f new s) :=
  ite (fun _ => stay s) (fun _ => ((fdc fdcS s _).trans (modFeeder fdcS f _ _)).trans (notify _ _ _ _))

theorem beginTrip (f : Fin 16) (o : Origin) (s : State) : Walk S s (Machine.beginTrip f o s) :=
  (modFeeder fdcS f _ s).trans (moveFeeder fdcS _ _ _)

theorem tripIfClearing (f : Fin 16) (s : State) : Walk S s (Machine.tripIfClearing f s) :=
  ite (fun _ => beginTrip fdcS _ _ s) (fun _ => stay s)

theorem mapFeeder (f : Fin 16) (s : State) : Walk S s (Machine.mapFeeder f s) := by
  have moved := moveFeeder fdcS f (s.mappedFeeder f) s
  exact ite (fun _ => moved.trans (modFeeder fdcS f _ _)) (fun _ => moved)

theorem fdcEngage (s : State) : Walk S s (Machine.fdcEngage s) :=
  fdcEvent fdcS _ s (forAll 16 _ (mapFeeder fdcS) s)

theorem dropRestoreQueue (s : State) : Walk S s (Machine.dropRestoreQueue s) := fdc fdcS s _

theorem releaseFeeders (s : State) : Walk S s (Machine.releaseFeeders s) := fdc fdcS s _

theorem fdcAbandon (s : State) : Walk S s (Machine.fdcAbandon s) :=
  fdcEvent fdcS _ s ((((dropRestoreQueue fdcS s).trans (releaseFeeders fdcS _)).trans
    (forAll 16 _ (mapFeeder fdcS) _)).trans (dropRestoreQueue fdcS _))

theorem rebuildQueue (s : State) : Walk S s (Machine.rebuildQueue s) := by
  refine fdcEvent fdcS _ s (Walk.trans ?_ (notify _ _ _ _))
  exact ((fdc fdcS s _).trans (forAll 16 _ (fun f s => ite (fun _ => moveFeeder fdcS f .openShed s)
    (fun _ => stay s)) _)).trans (fdc fdcS _ _)

theorem feederOut (f : Fin 16) (s : State) : Walk S s (Machine.feederOut f s) :=
  fdcEvent fdcS _ s ((modFeeder fdcS f _ s).trans (moveFeeder fdcS _ _ _))

theorem feederIn (f : Fin 16) (s : State) : Walk S s (Machine.feederIn f s) :=
  fdcEvent fdcS _ s ((modFeeder fdcS f _ s).trans (mapFeeder fdcS _ _))

end

section
variable (fdcS : .fdc ∈ S) (outS : .handovers ∈ S)
include outS

theorem reportTrip (o : Option Origin) (f : Fin 16) (ok : Bool) (s : State) :
    Walk S s (Machine.reportTrip o f ok s) := by
  unfold Machine.reportTrip; split
  · exact emit outS _ s
  · exact emit outS _ s
  · exact stay s

theorem reportClose (o : Option Origin) (f : Fin 16) (ok : Bool) (s : State) :
    Walk S s (Machine.reportClose o f ok s) := by
  unfold Machine.reportClose; split
  · exact emit outS _ s
  · exact emit outS _ s
  · exact emit outS _ s
  · exact stay s

include fdcS

theorem tripFeeder (f : Fin 16) (o : Origin) (s : State) : Walk S s (Machine.tripFeeder f o s) := by
  refine ite (fun _ => fdcEvent fdcS _ s (beginTrip fdcS _ _ s)) fun _ => ?_
  split
  · exact emit outS _ s
  · exact stay s

theorem closeFeeder (f : Fin 16) (o : Origin) (s : State) : Walk S s (Machine.closeFeeder f o s) :=
  ite (fun _ => fdcEvent fdcS _ s ((modFeeder fdcS f _ s).trans (moveFeeder fdcS _ _ _)))
    (fun _ => reportClose outS _ _ _ s)

theorem settleClear (s : State) : Walk S s (Machine.settleClear s) :=
  ite (fun _ => (fdc fdcS s _).trans (emit outS _ _)) (fun _ => stay s)

theorem restoreNext (c : Fin 24) (s : State) : Walk S s (Machine.restoreNext c s) := by
  unfold Machine.restoreNext; split
  · exact emit outS _ s
  · exact ite (fun _ => closeFeeder fdcS outS _ _ s) (fun _ => emit outS _ s)

theorem confirmTrip (f : Fin 16) (s : State) : Walk S s (Machine.confirmTrip f s) :=
  ((moveFeeder fdcS f _ s).trans (modFeeder fdcS f _ _)).trans (reportTrip outS _ _ _ _)

theorem confirmClose (f : Fin 16) (s : State) : Walk S s (Machine.confirmClose f s) :=
  ((moveFeeder fdcS f _ s).trans (modFeeder fdcS f _ _)).trans (reportClose outS _ _ _ _)

theorem feederFallen (f : Fin 16) (s : State) : Walk S s (Machine.feederFallen f s) := by
  have opened := (moveFeeder fdcS f .openExt s).trans (settleClear fdcS outS _)
  unfold Machine.feederFallen; split
  case h_1 => exact (confirmTrip fdcS outS f s).trans (settleClear fdcS outS _)
  case h_2 | h_3 => exact opened
  all_goals exact stay s

theorem feederRisen (f : Fin 16) (s : State) : Walk S s (Machine.feederRisen f s) := by
  have closed := ((moveFeeder fdcS f .closed s).trans (tripIfClearing fdcS f _)).trans (settleClear fdcS outS _)
  unfold Machine.feederRisen; split
  case h_1 =>
    exact ((confirmClose fdcS outS f s).trans (tripIfClearing fdcS f _)).trans (settleClear fdcS outS _)
  case h_2 | h_3 | h_4 => exact closed
  all_goals exact stay s

theorem breakerExpired (f : Fin 16) (s : State) : Walk S s (Machine.breakerExpired f s) := by
  have failed := (moveFeeder fdcS f .failed s).trans (modFeeder fdcS f (fun r => { r with origin := none }) _)
  refine (Walk.trans ?_ (emit outS _ _)).trans (settleClear fdcS outS _)
  exact ite (fun _ => failed.trans (reportTrip outS _ _ _ _)) (fun _ => failed.trans (reportClose outS _ _ _ _))

theorem clearBus (s : State) : Walk S s (Machine.clearBus s) :=
  ((fdc fdcS s _).trans (forAll 16 _ (fun _ s => ite (fun _ => tripFeeder fdcS outS _ _ s)
    (fun _ => stay s)) _)).trans (settleClear fdcS outS _)

theorem feederAction (a : FeederAction) (f : Fin 16) {s t : State} (h : Machine.feederAction a f s = some t) :
    Walk S s t := by
  cases a with
  | trip =>
    simp only [Machine.feederAction] at h
    split at h <;> cases h
    exact tripFeeder fdcS outS _ _ s
  | close =>
    simp only [Machine.feederAction] at h
    split at h <;> cases h
    exact closeFeeder fdcS outS _ _ s
  | takeOut =>
    simp only [Machine.feederAction] at h
    split at h
    · cases h
    · split at h <;> cases h
      · exact stay s
      · exact feederOut fdcS f s
  | bringIn =>
    simp only [Machine.feederAction] at h
    split at h <;> cases h
    · exact feederIn fdcS f s
    · exact stay s

end

/-! ### CTX and the sample heads -/

theorem notifyChange (a b : Int) (s : State) : Walk S s (Machine.notifyChange a b s) := notify _ _ _ s

theorem reportJudgements (old : Tab 31 HeadEntry) (s : State) : Walk S s (Machine.reportJudgements old s) :=
  forAll 31 _ (fun _ s => ite (fun _ => notify _ _ _ s) (fun _ => stay s)) s

section
variable (ctxS : .ctx ∈ S)
include ctxS

theorem makePending (p : Fin 8) (c : Int) (s : State) : Walk S s (Machine.makePending p c s) := ctx ctxS s _

theorem moveCap (d : Int) (s : State) : Walk S s (Machine.moveCap d s) :=
  ite (fun _ => stay s) (fun _ => (ctx ctxS s _).trans (notifyChange _ _ _))

theorem setForcedZero (s : State) : Walk S s (Machine.setForcedZero s) :=
  ite (fun _ => stay s) (fun _ => (ctx ctxS s _).trans (notifyChange _ _ _))

theorem clearForcedZero (s : State) : Walk S s (Machine.clearForcedZero s) :=
  ite (fun _ => (ctx ctxS s _).trans (notifyChange _ _ _)) (fun _ => stay s)

theorem fallbackFill (f : Fallback) (s : State) : Walk S s (Machine.fallbackFill f s) := by
  cases f with
  | hold => exact stay s
  | zero => exact forAll 8 _ (fun p s => ite (fun _ => makePending ctxS p 0 s) (fun _ => stay s)) s
  | full => exact forAll 8 _ (fun p s => ite (fun _ => makePending ctxS p _ s) (fun _ => stay s)) s

theorem beginSilent (s : State) : Walk S s (Machine.beginSilent s) :=
  ite (fun _ => ((ctx ctxS s _).trans (notifyChange _ _ _)).trans (fallbackFill ctxS _ _)) (fun _ => stay s)

theorem endSilent (s : State) : Walk S s (Machine.endSilent s) :=
  ite (fun _ => (ctx ctxS s _).trans (notifyChange _ _ _)) (fun _ => stay s)

theorem beginFault (s : State) : Walk S s (Machine.beginFault s) :=
  ((ctx ctxS s _).trans (ctx ctxS _ _)).trans (fallbackFill ctxS _ _)

theorem takeCeilings (cs : Tab 8 (Option Int)) (s : State) : Walk S s (Machine.takeCeilings cs s) := by
  refine ite (fun _ => (ctx ctxS s _).trans (forAll 8 _ (fun p s => ?_) _)) (fun _ => stay s)
  split
  · exact stay s
  · exact ite (fun _ => makePending ctxS _ _ s) (fun _ => stay s)

theorem ctxEngage (s : State) : Walk S s (Machine.ctxEngage s) := (ctx ctxS s _).trans (beginSilent ctxS _)

theorem ctxRestart (s : State) : Walk S s (Machine.ctxRestart s) :=
  ((endSilent ctxS s).trans (clearForcedZero ctxS _)).trans (ctx ctxS _ _)

theorem liftForcedZero (benS : .ben ∈ S) (s : State) : Walk S s (Machine.liftForcedZero s) :=
  (clearForcedZero ctxS s).trans (ben benS _ _)

end

/-! ### CHU -/

section
variable (chuS : .chains ∈ S)
include chuS

theorem modChain (n : Fin 6) (f : Chain → Chain) (s : State) : Walk S s (Machine.modChain n f s) := chains chuS s _

theorem bindChain (n : Fin 6) (t : Option (Fin 24)) (k : ChainKind) (l : Fin 4) (a : Nat)
    (m : ChainMode) (b : Nat) (s : State) : Walk S s (Machine.bindChain n t k l a m b s) :=
  (modChain chuS n _ s).trans (notify _ _ _ _)

theorem unbindChain (n : Fin 6) (s : State) : Walk S s (Machine.unbindChain n s) :=
  ite (fun _ => stay s) (fun _ => (modChain chuS n _ s).trans (notify _ _ _ _))

theorem abandonStep (n : Fin 6) (s : State) : Walk S s (Machine.abandonStep n s) :=
  ite (fun _ => stay s) (fun _ => (modChain chuS n _ s).trans (notify _ _ _ _))

theorem chuAbandon (s : State) : Walk S s (Machine.chuAbandon s) := forAll 6 _ (abandonStep chuS) s

theorem chuRestart (s : State) : Walk S s (Machine.chuRestart s) := (chuAbandon chuS s).trans (chains chuS _ _)

theorem beginStep (n : Fin 6) (c : Option (Fin 24)) (us : List PlantUnit) (a b : Nat) (s : State) :
    Walk S s (Machine.beginStep n c us a b s) := modChain chuS n _ s

end

section
variable (chuS : .chains ∈ S) (outS : .handovers ∈ S)
include chuS outS

theorem completeStep (n : Fin 6) (o : StepOutcome) (s : State) : Walk S s (Machine.completeStep n o s) := by
  unfold Machine.completeStep; dsimp only
  have ended := (modChain chuS n (fun ch => { ch with
    flight := none, trigger := if (s.chain n).count = 0 then none else ch.trigger,
    revision := ch.revision + 1 }) s).trans (notify .chain n.val
      [sField 2, sField o.code, sField (s.chain n).count, yesNo ((s.chain n).count = 0)] _)
  refine ite (fun _ => Walk.trans ?_ (emit outS _ _)) (fun _ => ?_)
  all_goals
    split
    · exact ended.trans (emit outS _ _)
    · exact ended

theorem unitEnded (n : Fin 6) (u : PlantUnit) (ok : Bool) (s : State) : Walk S s (Machine.unitEnded n u ok s) := by
  unfold Machine.unitEnded; split
  · exact stay s
  · exact ite (fun _ => ite (fun _ => (modChain chuS n _ s).trans (completeStep chuS outS _ _ _))
      (fun _ => modChain chuS n _ s)) (fun _ => stay s)

theorem emptyStep (n : Fin 6) (c : Option (Fin 24)) (a b : Nat) (s : State) :
    Walk S s (Machine.emptyStep n c a b s) := (beginStep chuS _ _ _ _ _ s).trans (completeStep chuS outS _ _ _)

theorem atOnceStep (n : Fin 6) (c : Option (Fin 24)) (f : State → State) (hf : ∀ s, Walk S s (f s)) (s : State) :
    Walk S s (Machine.atOnceStep n c f s).1 :=
  ((beginStep chuS _ _ _ _ _ s).trans (hf _)).trans (completeStep chuS outS _ _ _)

theorem startStep (gsdS : .gsd ∈ S) (n : Fin 6) (c : Option (Fin 24)) (s : State) :
    Walk S s (Machine.startStep n c s).1 := by
  unfold Machine.startStep; dsimp only; split
  · exact emptyStep chuS outS _ _ _ _ s
  · exact (beginStep chuS _ _ _ _ _ s).trans (startSet gsdS outS _ _ _)

theorem stopStep (gsdS : .gsd ∈ S) (n : Fin 6) (c : Option (Fin 24)) (s : State) :
    Walk S s (Machine.stopStep n c s).1 := by
  unfold Machine.stopStep; dsimp only; split
  · exact emptyStep chuS outS _ _ _ _ s
  · split
    · exact emptyStep chuS outS _ _ _ _ s
    · exact (beginStep chuS _ _ _ _ _ s).trans (stopSet gsdS outS _ _ _)

theorem shedStep (fdcS : .fdc ∈ S) (n : Fin 6) (c : Option (Fin 24)) (s : State) :
    Walk S s (Machine.shedStep n c s).1 := by
  unfold Machine.shedStep; dsimp only; split
  · exact emptyStep chuS outS _ _ _ _ s
  · exact (beginStep chuS _ _ _ _ _ s).trans (foldl _ _ (fun s f => tripFeeder fdcS outS f _ s) _)

theorem restoreStep (fdcS : .fdc ∈ S) (n : Fin 6) (c : Option (Fin 24)) (s : State) :
    Walk S s (Machine.restoreStep n c s).1 := by
  unfold Machine.restoreStep; dsimp only; split
  · exact emptyStep chuS outS _ _ _ _ s
  · split
    · exact emptyStep chuS outS _ _ _ _ s
    · exact (beginStep chuS _ _ _ _ _ s).trans (foldl _ _ (fun s f => closeFeeder fdcS outS f _ s) _)

theorem takeStep (gsdS : .gsd ∈ S) (fdcS : .fdc ∈ S) (ctxS : .ctx ∈ S) (n : Fin 6) (c : Option (Fin 24))
    (s : State) : Walk S s (Machine.takeStep n c s).1 := by
  unfold Machine.takeStep; dsimp only; split
  · exact atOnceStep chuS outS _ _ _ stay s
  · split
    · exact shedStep chuS outS fdcS _ _ s
    · exact restoreStep chuS outS fdcS _ _ s
    · exact startStep chuS outS gsdS _ _ s
    · exact stopStep chuS outS gsdS _ _ s
    · exact atOnceStep chuS outS _ _ _ (moveCap ctxS _) s
    · exact atOnceStep chuS outS _ _ _ (moveCap ctxS _) s

end

end Walk
end Sys2Proof.Machine

/-!
SUPPORT. `Walk` for BSS, the delivery of hand-overs, the modes, the settings, BEN, SRX, the host link and every command:
which parts of the state each may write. Last, what follows of it for every command (log entry 31, R196).
-/
namespace Sys2Proof.Machine

/-- SST and RSC at the entry to SAFE, before the blocks abandon their work (R168). -/
def safeEntered (cause : ModeCause) (s : State) : State :=
  { changeMode .safe cause s with sst.scan := none, rsc.auto := false }

theorem enterSafe_eq (cause : ModeCause) (s : State) :
    enterSafe cause s = beginFault (clearForcedZero (abandonWork (safeEntered cause s))) := rfl

/-- SST, SRX and RSC at RESTART, before the other blocks (R164). -/
def restartEntered (s : State) : State :=
  { changeMode .setup .restart s with
    sst.committed := none, sst.scan := none, sst.settingsFault := false
    srx := Srx.initial
    rsc := Rsc.initial }

theorem restartPart_eq (s : State) :
    restartPart s = ctxRestart (bssRestart (fdcAbandon (gsdAbandon (chuRestart (benRestart (restartEntered s)))))) := rfl

namespace Walk
variable {S : List Part}

/-! ### BSS -/

theorem notifyProgram (c : Cause) (s : State) : Walk S s (Machine.notifyProgram c s) := notify _ _ _ s

theorem announceAbort (s : State) : Walk S s (Machine.announceAbort s) := by
  unfold Machine.announceAbort; split
  · exact stay s
  · exact notify _ _ _ s

section
variable (bssS : .bss ∈ S)
include bssS

theorem enterFailed (c : Cause) (s : State) : Walk S s (Machine.enterFailed c s) :=
  (bss bssS s _).trans (notifyProgram _ _)

theorem enterEnergizing (g : Fin 6) (s : State) : Walk S s (Machine.enterEnergizing g s) :=
  (bss bssS s _).trans (notifyProgram _ _)

theorem grantTo (g : Fin 6) (s : State) : Walk S s (Machine.grantTo g s) := bss bssS s _

theorem abortProgram (ctxS : .ctx ∈ S) (s : State) : Walk S s (Machine.abortProgram s) :=
  ite (fun _ => stay s) (fun _ => (((announceAbort s).trans (bss bssS _ _)).trans (notify _ _ _ _)).trans
    (clearForcedZero ctxS _))

theorem bssRestart (ctxS : .ctx ∈ S) (s : State) : Walk S s (Machine.bssRestart s) :=
  (abortProgram bssS ctxS s).trans (bss bssS _ _)

theorem energizePass (s : State) : Walk S s (Machine.energizePass s) := by
  unfold Machine.energizePass; split
  · split
    · exact stay s
    · exact bss bssS s _
  · exact bss bssS s _

theorem energizeExpired (s : State) : Walk S s (Machine.energizeExpired s) :=
  ite (fun _ => (bss bssS s _).trans (notifyProgram _ _)) (fun _ => stay s)

theorem settleExpired (s : State) : Walk S s (Machine.settleExpired s) :=
  ite (fun _ => bss bssS s _) (fun _ => stay s)

theorem closeEnded (f : Fin 16) (s : State) : Walk S s (Machine.closeEnded f s) :=
  ite (fun _ => bss bssS s _) (fun _ => stay s)

end

section
variable (bssS : .bss ∈ S) (gsdS : .gsd ∈ S) (outS : .handovers ∈ S)
include gsdS outS

theorem announceGrant (g : Fin 6) (st : SetState) (s : State) : Walk S s (Machine.announceGrant g st s) :=
  ite (fun _ => (notify _ _ _ s).trans (startSet gsdS outS _ _ _)) (fun _ => notify _ _ _ s)

include bssS

theorem selectFirst (note : State → State) (hn : ∀ s, Walk S s (note s)) (s : State) :
    Walk S s (Machine.selectFirst note s) := by
  unfold Machine.selectFirst; split
  · exact (hn s).trans (enterEnergizing bssS _ _)
  · split
    · exact ((grantTo bssS _ s).trans (hn _)).trans (announceGrant gsdS outS _ _ _)
    · exact (hn s).trans (enterFailed bssS _ _)

theorem enterFirst (c : Cause) (s : State) : Walk S s (Machine.enterFirst c s) :=
  (bss bssS s _).trans (selectFirst bssS gsdS outS _ (notifyProgram c) _)

theorem withdrawGrant (n : Int) (s : State) : Walk S s (Machine.withdrawGrant n s) := by
  unfold Machine.withdrawGrant; split
  · exact stay s
  · exact ((bss bssS s _).trans (notify _ _ _ _)).trans (selectFirst bssS gsdS outS id stay _)

theorem firstCloseExpired (s : State) : Walk S s (Machine.firstCloseExpired s) :=
  ite (fun _ => withdrawGrant bssS gsdS outS _ s) (fun _ => stay s)

theorem firstLost (s : State) : Walk S s (Machine.firstLost s) := by
  unfold Machine.firstLost; dsimp only
  have idle := bss bssS s { s.bss with energizeTimer := none }
  split
  · exact idle.trans (bss bssS _ _)
  · exact idle.trans (enterFirst bssS gsdS outS _ _)

theorem setMoved (g : Fin 6) (a b : SetState) (s : State) : Walk S s (Machine.setMoved g a b s) := by
  unfold Machine.setMoved; split
  case h_1 =>
    exact ite (fun _ => enterEnergizing bssS g s)
      (fun _ => ite (fun _ => withdrawGrant bssS gsdS outS _ s) (fun _ => stay s))
  case h_2 => exact ite (fun _ => firstLost bssS gsdS outS s) (fun _ => stay s)
  all_goals exact stay s

theorem startForHeadroom (g : Fin 6) (s : State) : Walk S s (Machine.startForHeadroom g s) :=
  ((bss bssS s _).trans (notify _ _ _ _)).trans (startSet gsdS outS _ _ _)

end

section
variable (bssS : .bss ∈ S) (ctxS : .ctx ∈ S) (benS : .ben ∈ S) (outS : .handovers ∈ S)
include bssS ctxS benS outS

theorem finish (c : Cause) (s : State) : Walk S s (Machine.finish c s) :=
  (((liftForcedZero ctxS benS s).trans (bss bssS _ _)).trans (notifyProgram _ _)).trans (emit outS _ _)

theorem abandonProgram (s : State) : Walk S s (Machine.abandonProgram s) :=
  (((liftForcedZero ctxS benS s).trans (bss bssS _ _)).trans (notifyProgram _ _)).trans (emit outS _ _)

theorem startEnded (g : Fin 6) (ok : Bool) (s : State) : Walk S s (Machine.startEnded g ok s) :=
  ite (fun _ => ite (fun _ => bss bssS s _) (fun _ => (bss bssS s _).trans (finish bssS ctxS benS outS _ _)))
    (fun _ => stay s)

end

section
variable (bssS : .bss ∈ S) (ctxS : .ctx ∈ S) (gsdS : .gsd ∈ S) (fdcS : .fdc ∈ S) (outS : .handovers ∈ S)

/-- What the entry to CLEARING does before the clear of the bus. -/
theorem beforeClear (bssS : .bss ∈ S) (ctxS : .ctx ∈ S) (gsdS : .gsd ∈ S) (outS : .handovers ∈ S) (x : Bss)
    (c : Cause) (s : State) : Walk S s
      (Machine.stopAllSets (Machine.withdrawSets (Machine.setForcedZero (Machine.notifyProgram c { s with bss := x })))) :=
  ((((bss bssS s x).trans (notifyProgram c _)).trans (setForcedZero ctxS _)).trans
    (withdrawSets gsdS outS _)).trans (stopAllSets gsdS outS _)

include fdcS outS

theorem closeHead (bssS : .bss ∈ S) (f : Fin 16) (s : State) : Walk S s (Machine.closeHead f s) :=
  ((bss bssS s _).trans (notify _ _ _ _)).trans (closeFeeder fdcS outS _ _ _)

include bssS ctxS gsdS

theorem enterClearing (c : Cause) (s : State) : Walk S s (Machine.enterClearing c s) :=
  (beforeClear bssS ctxS gsdS outS _ c s).trans (clearBus fdcS outS _)

theorem startProgram (s : State) : Walk S s (Machine.startProgram s) :=
  (bss bssS s _).trans (enterClearing bssS ctxS gsdS fdcS outS _ _)

theorem retryProgram (s : State) : Walk S s (Machine.retryProgram s) :=
  (bss bssS s _).trans (enterClearing bssS ctxS gsdS fdcS outS _ _)

theorem collapse (c : Cause) (s : State) : Walk S s (Machine.collapse c s) :=
  ite (fun _ => (bss bssS s _).trans (enterFailed bssS _ _))
    (fun _ => (bss bssS s _).trans (enterClearing bssS ctxS gsdS fdcS outS _ _))

theorem limitExpired (s : State) : Walk S s (Machine.limitExpired s) :=
  ite (fun _ => collapse bssS ctxS gsdS fdcS outS _ s) (fun _ => stay s)

theorem busDied (s : State) : Walk S s (Machine.busDied s) :=
  ite (fun _ => collapse bssS ctxS gsdS fdcS outS _ s) (fun _ => stay s)

omit ctxS in
theorem clearSettled (s : State) : Walk S s (Machine.clearSettled s) :=
  ite (fun _ => (rebuildQueue fdcS s).trans (enterFirst bssS gsdS outS _ _)) (fun _ => stay s)

theorem restoreDecision (benS : .ben ∈ S) (s : State) : Walk S s (Machine.restoreDecision s) := by
  unfold Machine.restoreDecision; split
  · exact finish bssS ctxS benS outS _ s
  · split
    · exact closeHead fdcS outS bssS _ s
    · split
      · exact startForHeadroom bssS gsdS outS _ s
      · exact finish bssS ctxS benS outS _ s

theorem bssPass (benS : .ben ∈ S) (s : State) : Walk S s (Machine.bssPass s) := by
  unfold Machine.bssPass; split
  case h_1 => exact energizePass bssS s
  case h_2 => exact ite (fun _ => restoreDecision bssS ctxS gsdS fdcS outS benS s) (fun _ => stay s)
  all_goals exact stay s

end

/-! ### Hand-overs -/

/-- The parts that a cascade may write. -/
def cascadeParts : List Part := [.rsc, .chains, .gsd, .fdc, .bss, .ctx, .ben, .handovers]

theorem deliver (m : Handover) (s : State) : Walk cascadeParts s (Machine.deliver m s) := by
  have rscS : .rsc ∈ cascadeParts := by decide
  have chuS : .chains ∈ cascadeParts := by decide
  have gsdS : .gsd ∈ cascadeParts := by decide
  have fdcS : .fdc ∈ cascadeParts := by decide
  have bssS : .bss ∈ cascadeParts := by decide
  have ctxS : .ctx ∈ cascadeParts := by decide
  have benS : .ben ∈ cascadeParts := by decide
  have outS : .handovers ∈ cascadeParts := by decide
  cases m with
  | present vs => exact present rscS outS vs s
  | raise c n => exact takeRaise rscS outS c n s
  | complete _ c o => exact complete rscS outS c o s
  | examine => exact examine rscS outS s
  | startResponse c k =>
    cases k with
    | notice => exact stay s
    | chains =>
      show Walk _ s (chainsResponse c s)
      unfold chainsResponse; split
      · exact emit outS _ s
      · exact takeStep chuS outS gsdS fdcS ctxS _ _ s
    | startNext => exact startNext gsdS outS c s
    | stopNext => exact stopNext gsdS outS c s
    | restoreNext => exact restoreNext fdcS outS c s
    | blackStart => exact startProgram bssS ctxS gsdS fdcS outS s
  | chainUnitEnd n u ok => exact unitEnded chuS outS n u ok s
  | bssSetMoved g a b => exact setMoved bssS gsdS outS g a b s
  | bssStartEnd g ok => exact startEnded bssS ctxS benS outS g ok s
  | bssSettled => exact clearSettled bssS gsdS fdcS outS s
  | bssTripEnd => exact stay s
  | bssCloseEnd f _ => exact closeEnded bssS f s
  | bssPass => exact bssPass bssS ctxS gsdS fdcS outS benS s
  | bssBusDead => exact busDied bssS ctxS gsdS fdcS outS s

theorem drain (n : Nat) (s : State) : Walk cascadeParts s (Machine.drain n s) := by
  have outS : .handovers ∈ cascadeParts := by decide
  induction n generalizing s with
  | zero => exact stay s
  | succ n ih =>
    refine ite (fun _ => stay s) (fun _ => Walk.trans ?_ (ih _))
    unfold deliverNext; split
    · exact stay s
    · exact ((handovers outS s []).trans (deliver _ _)).trans (handovers outS _ _)

/-! ### Modes -/

section
variable (storeS : .store ∈ S)
include storeS

theorem changeMode (m : Mode) (c : ModeCause) (s : State) : Walk S s (Machine.changeMode m c s) :=
  (store storeS s { s.sst with mode := m } rfl).trans (notify _ _ _ _)

theorem startScan (s : State) : Walk S s (Machine.startScan s) := store storeS s _ rfl

theorem safeEntered (rscS : .rsc ∈ S) (c : ModeCause) (s : State) : Walk S s (Machine.safeEntered c s) := by
  have entered := changeMode storeS .safe c s
  rw [Machine.safeEntered]
  generalize Machine.changeMode .safe c s = a at entered ⊢
  have unscanned := store (S := S) storeS a { a.sst with scan := none } rfl
  exact entered.trans (unscanned.trans (rsc rscS _ { a.rsc with auto := false }))

theorem restartEntered (rscS : .rsc ∈ S) (srxS : .srx ∈ S) (s : State) : Walk S s (Machine.restartEntered s) := by
  have entered := changeMode storeS .setup .restart s
  rw [Machine.restartEntered]
  generalize Machine.changeMode .setup .restart s = a at entered ⊢
  have cleared := store (S := S) storeS a { a.sst with committed := none, scan := none, settingsFault := false } rfl
  exact entered.trans ((cleared.trans (srx srxS _ Srx.initial)).trans (rsc rscS _ Rsc.initial))

theorem commitImage (check : Word) (s : State) : Walk S s (Machine.commitImage check s) :=
  ((store storeS s { s.sst with committed := some check } rfl).trans (changeMode storeS .check .commit _)).trans
    (startScan storeS _)

end

section
variable (rscS : .rsc ∈ S) (chuS : .chains ∈ S) (gsdS : .gsd ∈ S) (fdcS : .fdc ∈ S) (bssS : .bss ∈ S)
  (ctxS : .ctx ∈ S) (storeS : .store ∈ S) (outS : .handovers ∈ S)
include gsdS fdcS ctxS outS

theorem engageRun (storeS : .store ∈ S) (benS : .ben ∈ S) (s : State) : Walk S s (Machine.engageRun s) :=
  (((((changeMode storeS _ _ s).trans (ben benS _ _)).trans (ctxEngage ctxS _)).trans (gsdEngage gsdS outS _)).trans
    (fdcEngage fdcS _)).trans (emit outS _ _)

include rscS chuS bssS

theorem abandonWork (s : State) : Walk S s (Machine.abandonWork s) :=
  ((((((clearActive rscS s).trans (idleHoldOffs rscS _)).trans (chuAbandon chuS _)).trans
    (gsdAbandon gsdS outS _)).trans (fdcAbandon fdcS _)).trans (abortProgram bssS ctxS _)).trans (endSilent ctxS _)

include storeS

theorem disengageRun (s : State) : Walk S s (Machine.disengageRun s) :=
  (((changeMode storeS .check .disengage s).trans (abandonWork rscS chuS gsdS fdcS bssS ctxS outS _)).trans
    (clearForcedZero ctxS _)).trans (ctx ctxS _ _)

theorem enterSafe (c : ModeCause) (s : State) : Walk S s (Machine.enterSafe c s) := by
  rw [enterSafe_eq]
  exact (((safeEntered storeS rscS c s).trans (abandonWork rscS chuS gsdS fdcS bssS ctxS outS _)).trans
    (clearForcedZero ctxS _)).trans (beginFault ctxS _)

theorem scanMismatch (s : State) : Walk S s (Machine.scanMismatch s) := by
  have entered := (store storeS s { s.sst with settingsFault := true } rfl).trans
    (enterSafe rscS chuS gsdS fdcS bssS ctxS storeS outS .scanMismatch _)
  unfold Machine.scanMismatch
  exact entered.trans (setFaultLatch rscS _ _)

theorem restartPart (benS : .ben ∈ S) (srxS : .srx ∈ S) (s : State) : Walk S s (Machine.restartPart s) := by
  rw [restartPart_eq]
  exact ((((((restartEntered storeS rscS srxS s).trans (ben benS _ _)).trans (chuRestart chuS _)).trans
    (gsdAbandon gsdS outS _)).trans (fdcAbandon fdcS _)).trans (bssRestart bssS ctxS _)).trans (ctxRestart ctxS _)

end
end Walk
end Sys2Proof.Machine

/-!
SUPPORT. `Walk` for time, the settings, BEN, SRX, the host link and every command; what follows of it for every command
(log entry 31, R196).
-/
namespace Sys2Proof.Machine

namespace Walk
variable {S : List Part}

/-! ### Time -/

section
variable (tickS : .tick ∈ S) (benS : .ben ∈ S) (gsdS : .gsd ∈ S)
include tickS benS gsdS

theorem advance (d : Nat) (s : State) : Walk S s (Machine.advance d s) :=
  ((tick tickS s (s.tick + BitVec.ofNat 32 d)).trans (ben benS _ _)).trans (gsd gsdS _ _)

theorem advanceTo (due : Tick) (s : State) : Walk S s (Machine.advanceTo due s) :=
  ite (fun _ => stay s) (fun _ => advance tickS benS gsdS _ s)

theorem expire (timer : Option Tick) (f : State → State) (hf : ∀ s, Walk S s (f s)) (s : State) :
    Walk S s (Machine.expire timer f s) := by
  cases timer with
  | none => exact stay s
  | some due => exact (advanceTo tickS benS gsdS due s).trans (hf _)

theorem runSecondDue (g : Fin 6) (s : State) : Walk S s (Machine.runSecondDue g s) :=
  ite (fun _ => advance tickS benS gsdS _ s) (fun _ => stay s)

theorem silentTickDue (ctxS : .ctx ∈ S) (s : State) : Walk S s (Machine.silentTickDue s) := by
  unfold Machine.silentTickDue; split
  · exact stay s
  · exact (advanceTo tickS benS gsdS _ s).trans ((ctx ctxS _ _).trans (fallbackFill ctxS _ _))

theorem faultTickDue (ctxS : .ctx ∈ S) (s : State) : Walk S s (Machine.faultTickDue s) := by
  unfold Machine.faultTickDue; split
  · exact stay s
  · exact (advanceTo tickS benS gsdS _ s).trans ((ctx ctxS _ _).trans (fallbackFill ctxS _ _))

theorem readScanItem (storeS : .store ∈ S) (s : State) : Walk S s (Machine.readScanItem s) := by
  unfold Machine.readScanItem; split
  · exact stay s
  · split
    · exact stay s
    · exact (advanceTo tickS benS gsdS _ s).trans (store storeS _ _ rfl)

end

/-! ### The host link -/

section
variable (linkS : .link ∈ S)
include linkS

theorem answer (kind tag : Byte) (st : Status) (vs : List Byte) (s : State) :
    Walk S s (Machine.answer kind tag st vs s) := link linkS s _

theorem replied {s t : State} (kind tag : Byte) (st : Status) (vs : List Byte) (w : Walk S s t) :
    Walk S s (Machine.answer kind tag st vs t) := w.trans (answer linkS _ _ _ _ _)

theorem sendReply (s : State) : Walk S s (Machine.sendReply s) := by
  unfold Machine.sendReply; split
  · exact stay s
  · exact link linkS s _

theorem sendNotice (s : State) : Walk S s (Machine.sendNotice s) := by
  unfold Machine.sendNotice; split
  · exact link linkS s _
  · exact stay s

theorem dropPartial (s : State) : Walk S s (Machine.dropPartial s) := link linkS s _

theorem placeFrame (p : List Byte) (s : State) : Walk S s (Machine.placeFrame p s) :=
  ite (fun _ => link linkS s _) (fun _ => stay s)

theorem hostChar (s : State) (c : Byte) : Walk S s (Machine.hostChar s c) := by
  unfold Machine.hostChar; split
  · exact ite (fun _ => link linkS s _) (fun _ => dropPartial linkS s)
  · exact ite (fun _ => dropPartial linkS s) (fun _ =>
      ite (fun _ => (dropPartial linkS s).trans (placeFrame linkS _ _)) (fun _ => link linkS s _))

theorem hostChars (cs : List Byte) (s : State) : Walk S s (Machine.hostChars cs s) :=
  foldl cs _ (hostChar linkS) s

end

/-! ### SRX -/

section
variable (srxS : .srx ∈ S)
include srxS

theorem takePower (h : Fin 31) (stamp : Stamp) (v : Int) (s : State) : Walk S s (Machine.takePower h stamp v s) :=
  (srx srxS s _).trans (reportJudgements _ _)

theorem powerAct (x : Sample) (s : State) : Walk S s (Machine.powerAct x s) := by
  cases x with
  | bus => exact stay s
  | power => exact ite (fun _ => takePower srxS _ _ _ s) (fun _ => stay s)

theorem takeBurst (burst : List Byte) (act : Sample → State → State) (ha : ∀ x s, Walk S s (act x s))
    (s : State) : Walk S s (Machine.takeBurst burst act s) := by
  refine ite (fun _ => ?_) (fun _ => stay s)
  split
  · exact srx srxS s _
  · exact (srx srxS s _).trans (ha _ _)

theorem receiveBurst (burst : List Byte) (s : State) : Walk S s (Machine.receiveBurst burst s) := by
  unfold Machine.receiveBurst; split
  · exact srx srxS s _
  · exact stay s

theorem deadTimerAt (k l : BusKind) (s : State) : Walk S s (Machine.deadTimerAt k l s) :=
  ite (fun _ => ite (fun _ => stay s) (fun _ => srx srxS s _)) (fun _ => srx srxS s _)

variable (outS : .handovers ∈ S)
include outS

theorem busDeclaredDead (s : State) : Walk S s (Machine.busDeclaredDead s) :=
  ((srx srxS s _).trans (emit outS _ _)).trans (emit outS _ _)

variable (ctxS : .ctx ∈ S)
include ctxS

theorem busFellSilent (s : State) : Walk S s (Machine.busFellSilent s) :=
  (((srx srxS s _).trans (reportJudgements _ _)).trans (beginSilent ctxS _)).trans (emit outS _ _)

theorem endSilence (s : State) : Walk S s (Machine.endSilence s) :=
  ite (fun _ => ((srx srxS s _).trans (emit outS _ _)).trans (endSilent ctxS _)) (fun _ => stay s)

theorem takeBusRecord (benS : .ben ∈ S) (k : BusKind) (stamp : Stamp) (v : Nat) (s : State) :
    Walk S s (Machine.takeBusRecord k stamp v s) := by
  unfold Machine.takeBusRecord; dsimp only
  refine (endSilence srxS outS ctxS s).trans ?_
  refine Walk.trans (srx srxS _ { (Machine.endSilence s).srx with
    heads := (Machine.endSilence s).tableAfter stamp v, busStamp := some stamp, lastKind := k }) ?_
  refine Walk.trans (reportJudgements (Machine.endSilence s).srx.heads _) ?_
  refine Walk.trans ?_ (ben benS _ _)
  refine Walk.trans ?_ (emit outS _ _)
  refine Walk.trans ?_ (emit outS _ _)
  exact Walk.trans (srx srxS _ _) (deadTimerAt srxS k (Machine.endSilence s).srx.lastKind _)

theorem busAct (benS : .ben ∈ S) (x : Sample) (s : State) : Walk S s (Machine.busAct x s) := by
  cases x with
  | bus => exact takeBusRecord srxS outS ctxS benS _ _ _ s
  | power => exact stay s

end

/-! ### BEN and the setpoint link -/

section
variable (ctxS : .ctx ∈ S)
include ctxS

theorem startCeiling (p : Fin 8) (c : Int) (s : State) : Walk S s (Machine.startCeiling p c s) :=
  (ctx ctxS s { s.ctx with waiting := s.ctx.waiting.put p none, line := some (ceilingFrameBytes p c) }).trans
    (ctx ctxS _ _)

theorem modPlant (p : Fin 8) (f : Plant → Plant) (s : State) : Walk S s (Machine.modPlant p f s) := ctx ctxS s _

theorem sendCeiling (s : State) : Walk S s (Machine.sendCeiling s) := by
  unfold Machine.sendCeiling; split
  · exact stay s
  · split
    · exact stay s
    · exact startCeiling ctxS _ _ s

theorem setService (p : Fin 8) (v : Bool) (s : State) : Walk S s (Machine.setService p v s) :=
  ite (fun _ => stay s) (fun _ => (modPlant ctxS p _ s).trans (notify _ _ _ _))

variable (benS : .ben ∈ S) (outS : .handovers ∈ S)
include benS outS

theorem deadPass (ps : PassStart) (s : State) : Walk S s (Machine.deadPass ps s) := by
  unfold Machine.deadPass; dsimp only
  refine ite (fun _ => ?_) (fun _ => ?_)
  · exact (((ben benS s _).trans (takeCeilings ctxS _ _)).trans (emit outS _ _)).trans (emit outS _ _)
  · exact ((ben benS s _).trans (emit outS _ _)).trans (emit outS _ _)

theorem periodPass (ps : PassStart) (s : State) : Walk S s (Machine.periodPass ps s) := by
  unfold Machine.periodPass; dsimp only
  exact (((ben benS s _).trans (takeCeilings ctxS _ _)).trans (emit outS _ _)).trans (emit outS _ _)

theorem takePass (ps : PassStart) (s : State) : Walk S s (Machine.takePass ps s) := by
  unfold Machine.takePass; dsimp only
  refine (ben benS s { s.ben with passNumber := s.ben.passNumber + 1 }).trans ?_
  split
  · exact deadPass ctxS benS outS _ _
  · exact periodPass ctxS benS outS _ _
  · exact periodPass ctxS benS outS _ _

theorem takeNextPass (s : State) : Walk S s (Machine.takeNextPass s) := by
  unfold Machine.takeNextPass; split
  · exact stay s
  · exact (ben benS s _).trans (takePass ctxS benS outS _ _)

end

/-! ### Settings -/

section
variable (rscS : .rsc ∈ S)
include rscS

theorem modeWritten (c : Fin 24) (h b : Bool) (s : State) : Walk S s (Machine.modeWritten c h b s) := by
  unfold Machine.modeWritten; dsimp only; split
  · exact ite (fun _ => modCond rscS _ _ s) (fun _ => (modCond rscS _ _ s).trans (moveLatch rscS _ _ _))
  · exact ite (fun _ => stay s) (fun _ => moveLatch rscS _ _ s)

theorem itemTuned (outS : .handovers ∈ S) (t : State) (k : ItemName) (s : State) :
    Walk S s (Machine.itemTuned t k s) := by
  unfold Machine.itemTuned; split
  · exact ite (fun _ => emit outS _ s) (fun _ => ite (fun _ => routeChanged rscS _ _ _ s) (fun _ => stay s))
  · exact stay s

theorem holdOffEnded (outS : .handovers ∈ S) (c : Fin 24) (s : State) : Walk S s (Machine.holdOffEnded c s) :=
  ite (fun _ => (modCond rscS c _ s).trans (examine rscS outS _)) (fun _ => modCond rscS c _ s)

variable (benS : .ben ∈ S) (ctxS : .ctx ∈ S) (gsdS : .gsd ∈ S) (fdcS : .fdc ∈ S) (outS : .handovers ∈ S)
include benS ctxS gsdS outS

/-- The effect of a changed item that is no feeder's. -/
theorem itemWritten_other (t : State) (k : ItemName) (later : List ItemName) (s : State)
    (other : ∀ f, k ≠ .feeder f 0) : Walk S s (Machine.itemWritten t k later s) := by
  cases k with
  | sys f => exact ite (fun _ => ben benS s _) (fun _ => stay s)
  | plant p f => exact ite (fun _ => stay s) (fun _ => modPlant ctxS _ _ s)
  | gen g f => exact ite (fun _ => gsdEvent gsdS _ s (mapSet gsdS outS g s)) (fun _ => stay s)
  | feeder i f =>
    have named : f.val ≠ 0 := fun h => other i (congrArg (ItemName.feeder i) (Fin.ext h))
    exact ite (fun h => absurd h named) (fun _ => stay s)
  | cond c f =>
    exact ite (fun _ => modeWritten rscS _ _ _ s)
      (fun _ => ite (fun _ => routeChanged rscS _ _ _ s) (fun _ => stay s))
  | shed l f => exact stay s
  | merit f => exact stay s

include fdcS

theorem itemWritten (t : State) (k : ItemName) (later : List ItemName) (s : State) :
    Walk S s (Machine.itemWritten t k later s) := by
  by_cases other : ∀ f, k ≠ .feeder f 0
  · exact itemWritten_other rscS benS ctxS gsdS outS t k later s other
  · obtain ⟨f, rfl⟩ := Classical.not_forall_not.1 other
    exact fdcEvent fdcS _ s (mapFeeder fdcS f s)

theorem itemsWritten (t : State) (l : List ItemName) (s : State) : Walk S s (Machine.itemsWritten t l s) := by
  induction l generalizing s with
  | nil => exact stay s
  | cons k rest ih => exact (itemWritten rscS benS ctxS gsdS fdcS outS t k rest s).trans (ih _)

theorem takeWrite (imageS : .image ∈ S) (items : List RawItem) (copy : Image) (s : State) :
    Walk S s (Machine.takeWrite items copy s) :=
  (image imageS s copy).trans (itemsWritten rscS benS ctxS gsdS fdcS outS _ _ _)

end

/-! ### Requests and events -/

section
variable (linkS : .link ∈ S)
include linkS

/-- A request and its cascade write what the act writes, the link, and the parts of a cascade. -/
theorem takeRequest (casc : cascadeParts ⊆ S) (kind tag : Byte) (body : List Byte) (fits : Bool)
    (act : Reply → State → State) (ha : ∀ s, Walk S s (act (Machine.answer kind tag) s)) (s : State) :
    Walk S s (Machine.takeRequest kind tag body fits act s) := by
  have serve : ∀ s, Walk S s (serveRequest kind tag fits act s) := fun s =>
    ite (fun _ => (ha s).trans ((drain _ _).mono casc)) (fun _ => answer linkS _ _ _ _ s)
  refine ite (fun _ => stay s) fun _ => ?_
  split
  · exact (sendReply linkS s).trans (serve _)
  · exact ite (fun _ => ((link linkS s _).trans (sendReply linkS _)).trans (serve _)) (fun _ => stay s)

end

theorem takeEvent (casc : cascadeParts ⊆ S) (f : State → State) (hf : ∀ s, Walk S s (f s)) (s : State) :
    Walk S s (Machine.takeEvent f s) :=
  ite (fun _ => stay s) (fun _ => (hf s).trans ((drain _ _).mono casc))

theorem takeInput (casc : cascadeParts ⊆ S) (level f : State → State) (hl : ∀ s, Walk S s (level s))
    (hf : ∀ s, Walk S s (f s)) (s : State) : Walk S s (Machine.takeInput level f s) :=
  ite (fun _ => hl s) (fun _ => ((hl s).trans (hf _)).trans ((drain _ _).mono casc))

/-! ### Acts of requests, by the parts of their owner -/

section
variable (linkS : .link ∈ S) (kind tag : Byte) (body : List Byte)
include linkS

theorem readAct (s : State) : Walk S s (Machine.readAct body (Machine.answer kind tag) s) := by
  unfold Machine.readAct; split <;> exact answer linkS _ _ _ _ s

theorem statusAct (s : State) : Walk S s (Machine.statusAct body (Machine.answer kind tag) s) := by
  unfold Machine.statusAct; split <;> exact answer linkS _ _ _ _ s

theorem commitAct (storeS : .store ∈ S) (s : State) :
    Walk S s (Machine.commitAct body (Machine.answer kind tag) s) := by
  unfold Machine.commitAct; split
  · split
    · exact answer linkS _ _ _ _ s
    · exact ite (fun _ => replied linkS _ _ _ _ (commitImage storeS _ s)) (fun _ => answer linkS _ _ _ _ s)
  · exact answer linkS _ _ _ _ s

theorem bindAct (chuS : .chains ∈ S) (s : State) :
    Walk S s (Machine.bindAct body (Machine.answer kind tag) s) := by
  unfold Machine.bindAct; split
  · unfold bindDecoded; dsimp only
    repeat' refine ite (fun _ => answer linkS _ _ _ _ s) (fun _ => ?_)
    exact replied linkS _ _ _ _ (bindChain chuS _ _ _ _ _ _ _ s)
  · exact answer linkS _ _ _ _ s

theorem unbindAct (chuS : .chains ∈ S) (s : State) :
    Walk S s (Machine.unbindAct body (Machine.answer kind tag) s) := by
  unfold Machine.unbindAct; split
  · exact answer linkS _ _ _ _ s
  · repeat' refine ite (fun _ => answer linkS _ _ _ _ s) (fun _ => ?_)
    exact replied linkS _ _ _ _ (unbindChain chuS _ s)

theorem plantAct (ctxS : .ctx ∈ S) (s : State) : Walk S s (Machine.plantAct body (Machine.answer kind tag) s) := by
  unfold Machine.plantAct; split
  · exact answer linkS _ _ _ _ s
  · repeat' refine ite (fun _ => answer linkS _ _ _ _ s) (fun _ => ?_)
    exact replied linkS _ _ _ _ (setService ctxS _ _ s)

theorem runtimeAct (gsdS : .gsd ∈ S) (s : State) :
    Walk S s (Machine.runtimeAct body (Machine.answer kind tag) s) := by
  unfold Machine.runtimeAct; split
  · exact answer linkS _ _ _ _ s
  · repeat' refine ite (fun _ => answer linkS _ _ _ _ s) (fun _ => ?_)
    exact replied linkS _ _ _ _ (modSet gsdS _ _ s)

theorem gensetAct (gsdS : .gsd ∈ S) (outS : .handovers ∈ S) (s : State) :
    Walk S s (Machine.gensetAct body (Machine.answer kind tag) s) := by
  unfold Machine.gensetAct; split
  · repeat' refine ite (fun _ => answer linkS _ _ _ _ s) (fun _ => ?_)
    split
    · next done => exact replied linkS _ _ _ _ (setAction gsdS outS _ _ done)
    · exact answer linkS _ _ _ _ s
  · exact answer linkS _ _ _ _ s

theorem feederAct (fdcS : .fdc ∈ S) (outS : .handovers ∈ S) (s : State) :
    Walk S s (Machine.feederAct body (Machine.answer kind tag) s) := by
  unfold Machine.feederAct; split
  · repeat' refine ite (fun _ => answer linkS _ _ _ _ s) (fun _ => ?_)
    split
    · next done => exact replied linkS _ _ _ _ (feederAction fdcS outS _ _ done)
    · exact answer linkS _ _ _ _ s
  · exact answer linkS _ _ _ _ s

section
variable (rscS : .rsc ∈ S)
include rscS

theorem clearAct (s : State) : Walk S s (Machine.clearAct body (Machine.answer kind tag) s) := by
  unfold Machine.clearAct; split
  · exact answer linkS _ _ _ _ s
  · exact replied linkS _ _ _ _ (clearFlag rscS _ s)

theorem ackAct (s : State) : Walk S s (Machine.ackAct body (Machine.answer kind tag) s) := by
  unfold Machine.ackAct; split
  · exact replied linkS _ _ _ _ (setLatch rscS _ _ s)
  · exact ite (fun _ => replied linkS _ _ _ _ (setFaultLatch rscS _ s))
      (fun _ => ite (fun _ => replied linkS _ _ _ _ (ackAll rscS s)) (fun _ => answer linkS _ _ _ _ s))

variable (outS : .handovers ∈ S)
include outS

theorem autoAct (s : State) : Walk S s (Machine.autoAct body (Machine.answer kind tag) s) := by
  have switched : ∀ b, Walk S s (Machine.answer kind tag .ok [] { s with rsc.auto := b }) := fun b =>
    replied linkS _ _ _ _ (rsc rscS s { s.rsc with auto := b })
  unfold Machine.autoAct; split
  · exact switched false
  · exact ite (fun _ => switched true) (fun _ => (switched true).trans (examine rscS outS _))
  · exact answer linkS _ _ _ _ s

theorem forceAct (s : State) : Walk S s (Machine.forceAct body (Machine.answer kind tag) s) := by
  unfold Machine.forceAct; split
  · exact answer linkS _ _ _ _ s
  · exact ite (fun _ => answer linkS _ _ _ _ s) (fun _ => ite (fun _ => answer linkS _ _ _ _ s) (fun _ =>
      (replied linkS _ _ _ _ (setFlag rscS _ _ s)).trans (examine rscS outS _)))

theorem tuneAct (storeS : .store ∈ S) (imageS : .image ∈ S) (s : State) :
    Walk S s (Machine.tuneAct body (Machine.answer kind tag) s) := by
  have tuned : ∀ k v, Walk S s (takeTune k v s) := fun k v =>
    ((image imageS s (s.sst.image.put k v)).trans
      (store storeS _ { s.sst with image := _, committed := some (checkOf (s.sst.image.put k v)) } rfl)).trans
      (startScan storeS _)
  unfold Machine.tuneAct; split
  · split
    · exact ite (fun _ => ite (fun _ => answer linkS _ _ _ _ s) (fun _ => ite (fun _ => answer linkS _ _ _ _ s)
        (fun _ => (replied linkS _ _ _ _ (tuned _ _)).trans (itemTuned rscS outS s _ _))))
        (fun _ => answer linkS _ _ _ _ s)
    · exact answer linkS _ _ _ _ s
  · exact answer linkS _ _ _ _ s

end

end

/-! ### Every command -/

/-- Every part but the settings image. -/
def allButImage : List Part :=
  [.tick, .srx, .ben, .ctx, .rsc, .chains, .gsd, .fdc, .bss, .store, .link, .handovers]

/-- Every part. -/
def allParts : List Part := .image :: allButImage

/-- A command that is a function of the state writes what the function writes. -/
theorem ofNext {s t u : State} (w : Walk S s u) (h : Host.Outcome.next u = (.next t : Answer)) : Walk S s t :=
  Host.Outcome.next.inj h ▸ w

section
variable (part : allButImage ⊆ S)
include part

theorem cascade_sub : cascadeParts ⊆ S := List.Subset.trans (by decide) part

theorem setInput (now : SetRec → Bool) (level : Bool) (put : SetRec → SetRec) (inRun : Fin 6 → State → State)
    (hf : ∀ g s, Walk S s (inRun g s)) (g : Fin 6) (s : State) :
    Walk S s (Machine.setInput now level put inRun g s) := by
  have gsdS : .gsd ∈ S := part (by decide)
  have outS : .handovers ∈ S := part (by decide)
  have acts : ∀ s, Walk S s (setInputActs inRun g s) := fun s =>
    gsdEvent gsdS _ s (whileInstalled gsdS outS _ g s (by
      split
      · exact hf g s
      · exact mapSet gsdS outS g s))
  exact ite (fun _ => stay s) (fun _ => takeInput (cascade_sub part) _ _ (modSet gsdS g _) acts s)

theorem setTimer (st : SetState) (f : Fin 6 → State → State) (hf : ∀ g s, Walk S s (f g s)) (g : Fin 6)
    (s : State) : Walk S s (Machine.setTimer st f g s) := by
  have gsdS : .gsd ∈ S := part (by decide)
  have outS : .handovers ∈ S := part (by decide)
  exact ite (fun _ => takeEvent (cascade_sub part) _ (expire (part (by decide)) (part (by decide)) gsdS _ _ fun s =>
    gsdEvent gsdS _ s (whileInstalled gsdS outS f g s (hf g s))) s) (fun _ => stay s)

theorem feederInput (level : Bool) (inRun : Fin 16 → State → State) (hf : ∀ f s, Walk S s (inRun f s))
    (f : Fin 16) (s : State) : Walk S s (Machine.feederInput level inRun f s) := by
  have fdcS : .fdc ∈ S := part (by decide)
  have acts : ∀ s, Walk S s (feederInputActs inRun f s) := fun s =>
    fdcEvent fdcS _ s (by
      split
      · exact hf f s
      · exact mapFeeder fdcS f s)
  exact ite (fun _ => stay s) (fun _ => takeInput (cascade_sub part) _ _ (modFeeder fdcS f _) acts s)

end

theorem write (tag : Byte) (body : List Byte) {s t : State} (h : Machine.exec (.write tag body) s = .next t) :
    Walk allParts s t := by
  have linkS : .link ∈ allParts := by decide
  have wrote : ∀ items copy s, Walk allParts s (Machine.takeWrite items copy s) :=
    takeWrite (by decide) (by decide) (by decide) (by decide) (by decide) (by decide) (by decide)
  have act : ∀ s, Walk allParts s (writeAct body (Machine.answer 0x03 tag) s) := fun s => by
    unfold writeAct; split
    · split
      · exact answer linkS _ _ _ _ s
      · exact replied linkS _ _ _ _ (wrote _ _ s)
    · exact answer linkS _ _ _ _ s
  exact ofNext (takeRequest linkS (by decide) _ _ _ _ _ act s) h

theorem tune (tag : Byte) (body : List Byte) {s t : State} (h : Machine.exec (.tune tag body) s = .next t) :
    Walk allParts s t := by
  have linkS : .link ∈ allParts := by decide
  have act : ∀ s, Walk allParts s (Machine.tuneAct body (Machine.answer 0x09 tag) s) :=
    tuneAct linkS _ _ _ (by decide) (by decide) (by decide) (by decide)
  exact ofNext (takeRequest linkS (by decide) _ _ _ _ _ act s) h

/-- No command but POWER_ON, RESET_N_ASSERTED, WRITE and TUNE writes the settings image, the reset level, the line rate or
the queue of commands. -/
theorem exec (c : Instr) {s t : State} (h : Machine.exec c s = .next t) (notPower : ∀ a b, c ≠ .powerOn a b)
    (notReset : c ≠ .resetNAsserted) (notWrite : ∀ tag body, c ≠ .write tag body ∧ c ≠ .tune tag body) :
    Walk allButImage s t := by
  have tickS : .tick ∈ allButImage := by decide
  have srxS : .srx ∈ allButImage := by decide
  have benS : .ben ∈ allButImage := by decide
  have ctxS : .ctx ∈ allButImage := by decide
  have rscS : .rsc ∈ allButImage := by decide
  have chuS : .chains ∈ allButImage := by decide
  have gsdS : .gsd ∈ allButImage := by decide
  have fdcS : .fdc ∈ allButImage := by decide
  have bssS : .bss ∈ allButImage := by decide
  have storeS : .store ∈ allButImage := by decide
  have linkS : .link ∈ allButImage := by decide
  have outS : .handovers ∈ allButImage := by decide
  have all : allButImage ⊆ allButImage := fun _ => id
  have casc : cascadeParts ⊆ allButImage := by decide
  have said : ∀ kind tag st vs s, Walk allButImage s (Machine.answer kind tag st vs s) := answer linkS
  have timed := @expire allButImage tickS benS gsdS
  cases c with
  | powerOn a b => exact absurd rfl (notPower a b)
  | resetNAsserted => exact absurd rfl notReset
  | write tag body => exact absurd rfl (notWrite tag body).1
  | tune tag body => exact absurd rfl (notWrite tag body).2
  | identify => exact ofNext (takeRequest linkS casc _ _ _ _ identifyAct (fun s => said _ _ _ _ s) s) h
  | read => exact ofNext (takeRequest linkS casc _ _ _ _ _ (readAct linkS _ _ _) s) h
  | status => exact ofNext (takeRequest linkS casc _ _ _ _ _ (statusAct linkS _ _ _) s) h
  | pass => exact ofNext (takeRequest linkS casc _ _ _ _ passAct (fun s => said _ _ _ _ s) s) h
  | commit => exact ofNext (takeRequest linkS casc _ _ _ _ _ (commitAct linkS _ _ _ storeS) s) h
  | engage =>
    have act : ∀ kind tag s, Walk allButImage s (Machine.engageAct (Machine.answer kind tag) s) := fun _ _ s =>
      ite (fun _ => (said _ _ _ _ s).trans (engageRun gsdS fdcS ctxS outS storeS benS _)) (fun _ => said _ _ _ _ s)
    exact ofNext (takeRequest linkS casc _ _ _ _ _ (act _ _) s) h
  | disengage =>
    have act : ∀ kind tag s, Walk allButImage s (Machine.disengageAct (Machine.answer kind tag) s) := fun _ _ s =>
      ite (fun _ => (said _ _ _ _ s).trans (disengageRun rscS chuS gsdS fdcS bssS ctxS storeS outS _))
        (fun _ => said _ _ _ _ s)
    exact ofNext (takeRequest linkS casc _ _ _ _ _ (act _ _) s) h
  | safe =>
    have act : ∀ kind tag s, Walk allButImage s (Machine.safeAct (Machine.answer kind tag) s) := fun _ _ s =>
      ite (fun _ => said _ _ _ _ s)
        (fun _ => (said _ _ _ _ s).trans (enterSafe rscS chuS gsdS fdcS bssS ctxS storeS outS _ _))
    exact ofNext (takeRequest linkS casc _ _ _ _ _ (act _ _) s) h
  | restart =>
    have act : ∀ kind tag s, Walk allButImage s (Machine.restartAct (Machine.answer kind tag) s) := fun _ _ s =>
      (said _ _ _ _ s).trans (restartPart rscS chuS gsdS fdcS bssS ctxS storeS outS benS srxS _)
    exact ofNext (takeRequest linkS casc _ _ _ _ _ (act _ _) s) h
  | auto => exact ofNext (takeRequest linkS casc _ _ _ _ _ (autoAct linkS _ _ _ rscS outS) s) h
  | force => exact ofNext (takeRequest linkS casc _ _ _ _ _ (forceAct linkS _ _ _ rscS outS) s) h
  | clear => exact ofNext (takeRequest linkS casc _ _ _ _ _ (clearAct linkS _ _ _ rscS) s) h
  | ack => exact ofNext (takeRequest linkS casc _ _ _ _ _ (ackAct linkS _ _ _ rscS) s) h
  | bind => exact ofNext (takeRequest linkS casc _ _ _ _ _ (bindAct linkS _ _ _ chuS) s) h
  | unbind => exact ofNext (takeRequest linkS casc _ _ _ _ _ (unbindAct linkS _ _ _ chuS) s) h
  | step =>
    have act : ∀ kind tag body s, Walk allButImage s (Machine.stepAct body (Machine.answer kind tag) s) := by
      intro _ _ _ s
      unfold Machine.stepAct; split
      · exact said _ _ _ _ s
      · repeat' refine ite (fun _ => said _ _ _ _ s) (fun _ => ?_)
        exact replied linkS _ _ _ _ (takeStep chuS outS gsdS fdcS ctxS _ _ s)
    exact ofNext (takeRequest linkS casc _ _ _ _ _ (act _ _ _) s) h
  | genset => exact ofNext (takeRequest linkS casc _ _ _ _ _ (gensetAct linkS _ _ _ gsdS outS) s) h
  | runtime => exact ofNext (takeRequest linkS casc _ _ _ _ _ (runtimeAct linkS _ _ _ gsdS) s) h
  | feeder => exact ofNext (takeRequest linkS casc _ _ _ _ _ (feederAct linkS _ _ _ fdcS outS) s) h
  | plant => exact ofNext (takeRequest linkS casc _ _ _ _ _ (plantAct linkS _ _ _ ctxS) s) h
  | blackstart =>
    have act : ∀ kind tag body s, Walk allButImage s (Machine.blackstartAct body (Machine.answer kind tag) s) := by
      intro _ _ _ s
      refine ite (fun _ => said _ _ _ _ s) fun _ => ite (fun _ => said _ _ _ _ s) fun _ =>
        ite (fun _ => said _ _ _ _ s) fun _ => ?_
      exact ite (fun _ => replied linkS _ _ _ _ (retryProgram bssS ctxS gsdS fdcS outS s))
        (fun _ => replied linkS _ _ _ _ (abandonProgram bssS ctxS benS outS s))
    exact ofNext (takeRequest linkS casc _ _ _ _ _ (act _ _ _) s) h
  | requestUnknown =>
    exact ofNext (ite (fun _ => stay s)
      (fun _ => takeRequest linkS casc _ _ _ _ unknownAct (fun s => said _ _ _ _ s) s)) h
  | hostFrameReceived => exact ofNext (takeEvent casc _ (hostChars linkS _) s) h
  | hostCharacterTimeout => exact ofNext (takeEvent casc _ (timed _ _ (dropPartial linkS)) s) h
  | replySend => exact ofNext (takeEvent casc _ (sendReply linkS) s) h
  | noticeSend => exact ofNext (takeEvent casc _ (sendNotice linkS) s) h
  | powerFrame => exact ofNext (takeEvent casc _ (takeBurst srxS _ _ (powerAct srxS)) s) h
  | busRecord => exact ofNext (takeEvent casc _ (takeBurst srxS _ _ (busAct srxS outS ctxS benS)) s) h
  | busSilenceTimerExpiry => exact ofNext (takeEvent casc _ (timed _ _ (busFellSilent srxS outS ctxS)) s) h
  | deadTimerExpiry => exact ofNext (takeEvent casc _ (timed _ _ (busDeclaredDead srxS outS)) s) h
  | balancePass => exact ofNext (takeEvent casc _ (takeNextPass ctxS benS outS) s) h
  | ceilingFrameSend => exact ofNext (takeEvent casc _ (sendCeiling ctxS) s) h
  | silentFallbackTick => exact ofNext (takeEvent casc _ (silentTickDue tickS benS gsdS ctxS) s) h
  | faultFallbackTick => exact ofNext (takeEvent casc _ (faultTickDue tickS benS gsdS ctxS) s) h
  | holdOffExpiry => exact ofNext (takeEvent casc _ (timed _ _ (holdOffEnded rscS outS _)) s) h
  | runningRises g => exact ofNext (setInput all _ _ _ _ (runningRisen gsdS outS) g s) h
  | runningFalls g => exact ofNext (setInput all _ _ _ _ (runningFallen gsdS outS) g s) h
  | breakerRises g => exact ofNext (setInput all _ _ _ _ (setBreakerRisen gsdS outS) g s) h
  | breakerFalls g => exact ofNext (setInput all _ _ _ _ (setBreakerFallen gsdS outS) g s) h
  | readyRises g => exact ofNext (setInput all _ _ _ _ (readyRisen gsdS outS) g s) h
  | readyFalls g => exact ofNext (setInput all _ _ _ _ (readyFallen gsdS outS) g s) h
  | crankTimerExpiry g => exact ofNext (setTimer all _ _ (crankExpired gsdS outS) g s) h
  | restTimerExpiry g => exact ofNext (setTimer all _ _ (restExpired gsdS outS) g s) h
  | syncTimerExpiry g => exact ofNext (setTimer all _ _ (syncExpired gsdS outS) g s) h
  | stopTimerExpiry g => exact ofNext (setTimer all _ _ (stopExpired gsdS outS) g s) h
  | minRunTimerExpiry g =>
    refine ofNext (takeEvent casc _ (timed _ _ fun s => ?_) s) h
    exact gsdEvent gsdS _ s (whileInstalled gsdS outS _ g s (modSet gsdS g _ s))
  | runSecond g => exact ofNext (takeEvent casc _ (runSecondDue tickS benS gsdS g) s) h
  | feederBreakerFalls f => exact ofNext (feederInput all _ _ (feederFallen fdcS outS) f s) h
  | feederBreakerRises f => exact ofNext (feederInput all _ _ (feederRisen fdcS outS) f s) h
  | breakerTimerExpiry f =>
    exact ofNext (ite (fun _ => takeEvent casc _ (timed _ _ fun s =>
      fdcEvent fdcS _ s (breakerExpired fdcS outS f s)) s) (fun _ => stay s)) h
  | firstCloseTimerExpiry => exact ofNext (takeEvent casc _ (timed _ _ (firstCloseExpired bssS gsdS outS)) s) h
  | energizeTimerExpiry => exact ofNext (takeEvent casc _ (timed _ _ (energizeExpired bssS)) s) h
  | energizeLimitTimerExpiry =>
    exact ofNext (takeEvent casc _ (timed _ _ (limitExpired bssS ctxS gsdS fdcS outS)) s) h
  | settleTimerExpiry => exact ofNext (takeEvent casc _ (timed _ _ (settleExpired bssS)) s) h
  | scanItemRead => exact ofNext (takeEvent casc _ (readScanItem tickS benS gsdS storeS) s) h
  | scanCompletion =>
    refine ofNext (takeEvent casc _ (fun s => ?_) s) h
    unfold completeScan; split
    · exact stay s
    · exact (advanceTo tickS benS gsdS _ s).trans (ite (fun _ => startScan storeS _)
        (fun _ => scanMismatch rscS chuS gsdS fdcS bssS ctxS storeS outS _))
  | sampleFrameReceived => exact ofNext (takeEvent casc _ (receiveBurst srxS _) s) h

end Walk

/-! ### What every command leaves unchanged -/

/-- Every command answers a next state: a request that does not fit is answered by a reply (R181). -/
theorem exec_answers (c : Instr) (s : State) : ∃ t, exec c s = .next t := by
  cases c <;> exact ⟨_, rfl⟩

/-- No command touches the queue of commands. -/
theorem exec_pending (c : Instr) {s t : State} (h : exec c s = .next t) : t.pending = s.pending := by
  by_cases power : ∃ a b, c = .powerOn a b
  · obtain ⟨a, b, rfl⟩ := power
    obtain rfl := Host.Outcome.next.inj h; rfl
  by_cases reset : c = .resetNAsserted
  · subst reset
    obtain rfl := Host.Outcome.next.inj h; rfl
  by_cases written : ∃ tag body, c = .write tag body
  · obtain ⟨tag, body, rfl⟩ := written
    exact (Walk.write tag body h).pending_eq
  by_cases tuned : ∃ tag body, c = .tune tag body
  · obtain ⟨tag, body, rfl⟩ := tuned
    exact (Walk.tune tag body h).pending_eq
  exact (Walk.exec c h (fun a b e => power ⟨a, b, e⟩) reset
    (fun tag body => ⟨fun e => written ⟨tag, body, e⟩, fun e => tuned ⟨tag, body, e⟩⟩)).pending_eq

/-- Settles O2: each arm of `exec` answers, and no walk writes the queue. -/
theorem commandsAnswerAndKeepTheQueue : Obligations.CommandsAnswerAndKeepTheQueue := by
  refine ⟨fun c s => ?_, fun s => ?_⟩
  · obtain ⟨t, h⟩ := exec_answers c s
    exact ⟨t, h, exec_pending c h⟩
  · unfold step; split
    · exact ⟨_, rfl⟩
    · exact exec_answers _ _

/-- Settles O15: the walks of WRITE and TUNE alone may write the image, and none the line rate. -/
theorem settingsChangeOnlyByRequest : Obligations.SettingsChangeOnlyByRequest := by
  intro c s t h notPower
  by_cases reset : c = .resetNAsserted
  · subst reset
    obtain rfl := Host.Outcome.next.inj h
    exact ⟨rfl, fun _ => rfl⟩
  refine ⟨?_, fun notWrite => (Walk.exec c h notPower reset notWrite).image_eq (by decide)⟩
  by_cases written : ∃ tag body, c = .write tag body
  · obtain ⟨tag, body, rfl⟩ := written
    exact (Walk.write tag body h).lineRate_eq
  by_cases tuned : ∃ tag body, c = .tune tag body
  · obtain ⟨tag, body, rfl⟩ := tuned
    exact (Walk.tune tag body h).lineRate_eq
  exact (Walk.exec c h notPower reset
    (fun tag body => ⟨fun e => written ⟨tag, body, e⟩, fun e => tuned ⟨tag, body, e⟩⟩)).lineRate_eq

end Sys2Proof.Machine

/-!
SUPPORT. The restore queue holds exactly the OPEN_SHED feeders (R135): what the move of a feeder does to the queue and to
the row, said once, and `Shed s t` for every operation that moves feeders (log entry 63).
-/
namespace Sys2Proof.Machine

/-! ### The move of a feeder (R126, R127, R135) -/

theorem moveFeeder_of_eq {f : Fin 16} {new : FeederState} {s : State} (h : (s.feederRec f).state = new) :
    moveFeeder f new s = s := if_pos h

/-- The steps of a move to another state, in order. -/
theorem moveFeeder_of_ne {f : Fin 16} {new : FeederState} {s : State} (h : (s.feederRec f).state ≠ new) :
    moveFeeder f new s = notifyFeeder f (modFeeder f (s.enterFeeder new)
      { s with fdc.queue := queuePlace f (s.feederRec f).state new s.fdc.queue }) := if_neg h

theorem moveFeeder_queue (f : Fin 16) (new : FeederState) (s : State) :
    (moveFeeder f new s).fdc.queue =
      if (s.feederRec f).state = new then s.fdc.queue else queuePlace f (s.feederRec f).state new s.fdc.queue := by
  split
  · next h => rw [moveFeeder_of_eq h]
  · next h => rw [moveFeeder_of_ne h, notifyFeeder, notify_fdc]; rfl

theorem moveFeeder_self (f : Fin 16) (new : FeederState) (s : State) :
    (moveFeeder f new s).feederRec f =
      if (s.feederRec f).state = new then s.feederRec f else s.enterFeeder new (s.feederRec f) := by
  split
  · next h => rw [moveFeeder_of_eq h]
  · next h => rw [moveFeeder_of_ne h, notifyFeeder, notify_feederRec, modFeeder_feederRec_self]; rfl

theorem moveFeeder_outOfService (f : Fin 16) (new : FeederState) (s : State) (h : Fin 16) :
    ((moveFeeder f new s).feederRec h).outOfService = (s.feederRec h).outOfService := by
  by_cases e : f = h
  · subst e
    rw [moveFeeder_self]; split <;> rfl
  · rw [moveFeeder_other f h new s e]

theorem feederInstalled_congr {s t : State} (image : t.sst.image = s.sst.image) (f : Fin 16) :
    t.feederInstalled f = s.feederInstalled f := by
  unfold State.feederInstalled State.setting; rw [image]

theorem mem_queuePlace_self {f : Fin 16} {old new : FeederState} {q : List (Fin 16)} (nodup : q.Nodup)
    (mem : f ∈ q ↔ old = .openShed) : f ∈ queuePlace f old new q ↔ new = .openShed := by
  unfold queuePlace; dsimp only
  by_cases joins : new = .openShed
  · simp [joins]
  · rw [if_neg joins]
    split
    · simp [nodup.mem_erase_iff, joins]
    · next h => simp [mem, h, joins]

theorem mem_queuePlace_other {f h : Fin 16} (other : f ≠ h) (old new : FeederState) (q : List (Fin 16)) :
    h ∈ queuePlace f old new q ↔ h ∈ q := by
  have e : h ≠ f := Ne.symm other
  unfold queuePlace; dsimp only
  split <;> split <;> simp [e, List.mem_erase_of_ne]

theorem nodup_queuePlace {f : Fin 16} {old new : FeederState} {q : List (Fin 16)} (changes : old ≠ new)
    (nodup : q.Nodup) (mem : f ∈ q ↔ old = .openShed) : (queuePlace f old new q).Nodup := by
  unfold queuePlace; dsimp only
  by_cases left : old = .openShed
  · rw [if_pos left, if_neg fun joins => changes (left.trans joins.symm)]
    exact nodup.erase f
  · rw [if_neg left]
    by_cases joins : new = .openShed
    · rw [if_pos joins]
      exact List.nodup_cons.2 ⟨fun h => left (mem.1 h), nodup⟩
    · rw [if_neg joins]
      exact nodup

/-! ### The second invariant of R135, some feeders left out of its last clause -/

/-- As `State.ShedOk`, but the feeders of `p` may be out of OUT_OF_SERVICE without being installed or in service. -/
def State.ShedBut (p : Fin 16 → Prop) (s : State) : Prop :=
  s.fdc.queue.Nodup ∧ (∀ f, f ∈ s.fdc.queue ↔ (s.feederRec f).state = .openShed) ∧
  ∀ f, ¬p f → s.feederInstalled f = false ∨ (s.feederRec f).outOfService = true →
    (s.feederRec f).state = .outOfService

theorem shedBut_none (s : State) : s.ShedBut (fun _ => False) ↔ s.ShedOk := by
  simp [State.ShedBut, State.ShedOk]

theorem State.ShedOk.but {s : State} (ok : s.ShedOk) (p : Fin 16 → Prop) : s.ShedBut p :=
  ⟨ok.1, ok.2.1, fun f _ => ok.2.2 f⟩

/-- A feeder of the queue, or any that is not in OUT_OF_SERVICE, is installed and in service. -/
theorem State.ShedOk.serves {s : State} (ok : s.ShedOk) {f : Fin 16} (h : (s.feederRec f).state ≠ .outOfService) :
    ¬(s.feederInstalled f = false ∨ (s.feederRec f).outOfService = true) := fun k => h (ok.2.2 f k)

/-- The queue and the rows that the invariant reads are the same. -/
theorem shedBut_congr {p : Fin 16 → Prop} {s t : State} (queue : t.fdc.queue = s.fdc.queue)
    (state : ∀ f, (t.feederRec f).state = (s.feederRec f).state)
    (service : ∀ f, ¬p f → (t.feederRec f).outOfService = (s.feederRec f).outOfService)
    (installed : ∀ f, ¬p f → t.feederInstalled f = s.feederInstalled f) (ok : s.ShedBut p) : t.ShedBut p := by
  obtain ⟨nodup, mem, out⟩ := ok
  refine ⟨queue ▸ nodup, fun f => by rw [queue, state, mem], fun f hf h => ?_⟩
  rw [installed f hf, service f hf] at h
  rw [state, out f hf h]

/-- A feeder moves to a state that fits it; the others may stand in `p` as they did. -/
theorem State.ShedBut.moveFeeder {p q : Fin 16 → Prop} {s : State} (ok : s.ShedBut p) (f : Fin 16) (new : FeederState)
    (others : ∀ h, f ≠ h → ¬q h → ¬p h)
    (fits : ¬q f → s.feederInstalled f = false ∨ (s.feederRec f).outOfService = true → new = .outOfService) :
    (Machine.moveFeeder f new s).ShedBut q := by
  obtain ⟨nodup, mem, out⟩ := ok
  have image : (Machine.moveFeeder f new s).sst.image = s.sst.image :=
    (Walk.moveFeeder (S := [.fdc]) (by decide) f new s).image_eq (by decide)
  refine ⟨?_, fun h => ?_, fun h hq => ?_⟩
  · rw [moveFeeder_queue]; split
    · exact nodup
    · next changes => exact nodup_queuePlace changes nodup (mem f)
  · rw [moveFeeder_queue]
    by_cases e : f = h
    · subst e
      rw [moveFeeder_state]; split
      · next same => rw [mem, same]
      · exact mem_queuePlace_self nodup (mem f)
    · rw [moveFeeder_other f h new s e, ← mem h]; split
      · rfl
      · exact mem_queuePlace_other e _ _ _
  · rw [feederInstalled_congr image, moveFeeder_outOfService]
    by_cases e : f = h
    · subst e
      rw [moveFeeder_state]; exact fits hq
    · rw [moveFeeder_other f h new s e]; exact out h (others h e hq)

theorem State.ShedBut.modFeeder {p : Fin 16 → Prop} {s : State} (ok : s.ShedBut p) (i : Fin 16)
    (f : FeederRec → FeederRec) (state : ∀ r, (f r).state = r.state)
    (service : ¬p i → ∀ r, (f r).outOfService = r.outOfService) : (Machine.modFeeder i f s).ShedBut p := by
  have row : ∀ j, (Machine.modFeeder i f s).feederRec j = if i = j then f (s.feederRec i) else s.feederRec j :=
    fun j => modFeeder_feederRec i j f s
  refine shedBut_congr (s := s) rfl (fun j => ?_) (fun j hj => ?_) (fun j _ => rfl) ok
  · rw [row]; split
    · next e => subst e; exact state _
    · rfl
  · rw [row]; split
    · next e => subst e; exact service hj _
    · rfl

/-- An event at FDC changes revisions beside what it does. -/
theorem fdcEvent_state (f : State → State) (s : State) (i : Fin 16) :
    ((fdcEvent f s).feederRec i).state = ((f s).feederRec i).state := by
  show (((f s).fdc.feeders.mapIdx _).get i).state = _
  rw [Tab.get_mapIdx]; split <;> rfl

theorem fdcEvent_outOfService (f : State → State) (s : State) (i : Fin 16) :
    ((fdcEvent f s).feederRec i).outOfService = ((f s).feederRec i).outOfService := by
  show (((f s).fdc.feeders.mapIdx _).get i).outOfService = _
  rw [Tab.get_mapIdx]; split <;> rfl

theorem State.ShedBut.fdcEvent {p : Fin 16 → Prop} {f : State → State} {s : State} (ok : (f s).ShedBut p) :
    (Machine.fdcEvent f s).ShedBut p :=
  shedBut_congr (s := f s) rfl (fdcEvent_state f s) (fun i _ => fdcEvent_outOfService f s i) (fun _ _ => rfl) ok

/-! ### The mapping (R143) -/

/-- The mapping gives OUT_OF_SERVICE to a feeder not installed or out of service. -/
theorem mappedFeeder_out {s : State} {f : Fin 16}
    (h : s.feederInstalled f = false ∨ (s.feederRec f).outOfService = true) : s.mappedFeeder f = .outOfService := by
  unfold State.mappedFeeder; dsimp only
  rcases h with h | h <;> simp [h]

/-- The states that the mapping can give. -/
theorem mappedFeeder_cases (s : State) (f : Fin 16) :
    s.mappedFeeder f = .outOfService ∨ s.mappedFeeder f = .closed ∨ s.mappedFeeder f = .openExt := by
  unfold State.mappedFeeder; dsimp only
  split
  · exact .inl rfl
  · split
    · exact .inr (.inl rfl)
    · exact .inr (.inr rfl)

/-- The mapping of a feeder, as the move and the end of a pre-shed load. -/
theorem mapFeeder_eq (f : Fin 16) (s : State) :
    mapFeeder f s =
      if s.mappedFeeder f = .closed then
        modFeeder f (fun r => { r with preShed := none }) (moveFeeder f (s.mappedFeeder f) s)
      else moveFeeder f (s.mappedFeeder f) s := by
  unfold mapFeeder; dsimp only
  rw [moveFeeder_state]

theorem mapFeeder_other (f h : Fin 16) (s : State) (e : f ≠ h) : (mapFeeder f s).feederRec h = s.feederRec h := by
  rw [mapFeeder_eq]; split
  · rw [modFeeder_feederRec, if_neg e, moveFeeder_other f h _ s e]
  · rw [moveFeeder_other f h _ s e]

/-- The row of a mapped feeder: no mapped state has a timer. -/
theorem mapFeeder_self (f : Fin 16) (s : State) :
    (mapFeeder f s).feederRec f = { s.feederRec f with
      state := s.mappedFeeder f
      timer := if (s.feederRec f).state = s.mappedFeeder f then (s.feederRec f).timer else none
      preShed := if s.mappedFeeder f = .closed then none else (s.feederRec f).preShed } := by
  have idle : s.feederTimerFor (s.mappedFeeder f) = none := by
    unfold State.feederTimerFor
    rcases mappedFeeder_cases s f with h | h | h <;> simp [h]
  rw [mapFeeder_eq]
  by_cases closed : s.mappedFeeder f = .closed
  · rw [if_pos closed, modFeeder_feederRec_self, moveFeeder_self]
    split
    · next same => simp [← same]
    · simp [State.enterFeeder, closed ▸ idle, closed]
  · rw [if_neg closed, moveFeeder_self]
    split
    · next same => simp [← same]
    · simp [State.enterFeeder, idle, closed]

theorem State.ShedBut.mapFeeder {p q : Fin 16 → Prop} {s : State} (ok : s.ShedBut p) (f : Fin 16)
    (others : ∀ h, f ≠ h → ¬q h → ¬p h) : (Machine.mapFeeder f s).ShedBut q := by
  have moved := ok.moveFeeder f (s.mappedFeeder f) others fun _ h => mappedFeeder_out h
  rw [mapFeeder_eq]; split
  · exact moved.modFeeder f _ (fun _ => rfl) (fun _ _ => rfl)
  · exact moved

end Sys2Proof.Machine

/-!
SUPPORT. `Shed s t` for every operation that moves feeders and for every command: the second invariant of R135 survives
(log entry 63).
-/
namespace Sys2Proof.Machine

/-- `t` has the settings image of `s`, and the second invariant of R135 where `s` has it. -/
structure Shed (s t : State) : Prop where
  image : t.sst.image = s.sst.image
  ok : s.ShedOk → t.ShedOk

/-- The parts that the second invariant of R135 does not read. -/
def besideFeeders : List Part := [.tick, .srx, .ben, .ctx, .rsc, .chains, .gsd, .bss, .store, .link, .handovers]

theorem shedOk_congr {s t : State} (image : t.sst.image = s.sst.image) (queue : t.fdc.queue = s.fdc.queue)
    (rows : ∀ f, (t.feederRec f).state = (s.feederRec f).state ∧
      (t.feederRec f).outOfService = (s.feederRec f).outOfService) (ok : s.ShedOk) : t.ShedOk :=
  (shedBut_none t).1 (shedBut_congr queue (fun f => (rows f).1) (fun f _ => (rows f).2)
    (fun f _ => feederInstalled_congr image f) ((shedBut_none s).2 ok))

namespace Shed
variable {s t u : State}

theorem stay (s : State) : Shed s s := ⟨rfl, id⟩

theorem trans (a : Shed s t) (b : Shed t u) : Shed s u := ⟨b.image.trans a.image, b.ok ∘ a.ok⟩

theorem ite {p : Prop} [Decidable p] {f g : State} (hf : p → Shed s f) (hg : ¬p → Shed s g) :
    Shed s (if p then f else g) := by
  split
  · exact hf ‹_›
  · exact hg ‹_›

theorem foldl {α : Type} (l : List α) (f : State → α → State) (hf : ∀ s a, Shed s (f s a)) (s : State) :
    Shed s (l.foldl f s) := by
  induction l generalizing s with
  | nil => exact stay s
  | cons a l ih => exact (hf s a).trans (ih _)

theorem forAll (n : Nat) (f : Fin n → State → State) (hf : ∀ i s, Shed s (f i s)) (s : State) :
    Shed s (Machine.forAll n f s) := foldl _ _ (fun s i => hf i s) s

/-- What writes neither the feeders nor the image. -/
theorem ofWalk (w : Walk besideFeeders s t) : Shed s t where
  image := w.image_eq (by decide)
  ok := shedOk_congr (w.image_eq (by decide)) (by rw [w.fdc_eq (by decide)]) fun f => by
    simp only [State.feederRec, w.fdc_eq (by decide), and_self]

theorem emit (m : Handover) (s : State) : Shed s (Machine.emit m s) := ofWalk (Walk.emit (by decide) m s)

/-- What writes the rows of the feeders, but neither the states nor OUT_OF_SERVICE. -/
theorem modFeeder (i : Fin 16) (f : FeederRec → FeederRec) (state : ∀ r, (f r).state = r.state)
    (service : ∀ r, (f r).outOfService = r.outOfService) (s : State) : Shed s (Machine.modFeeder i f s) where
  image := rfl
  ok ok := (shedBut_none _).1 (((shedBut_none s).2 ok).modFeeder i f state fun _ => service)

/-- The move of a feeder that serves. -/
theorem moveFeeder (f : Fin 16) (new : FeederState) (s : State) (serves : (s.feederRec f).state ≠ .outOfService) :
    Shed s (Machine.moveFeeder f new s) where
  image := (Walk.moveFeeder (S := [.fdc]) (by decide) f new s).image_eq (by decide)
  ok ok := (shedBut_none _).1 (((shedBut_none s).2 ok).moveFeeder f new (fun _ _ h => h)
    fun _ out => absurd out (ok.serves serves))

theorem fdcEvent (f : State → State) (s : State) (hf : Shed s (f s)) : Shed s (Machine.fdcEvent f s) where
  image := hf.image
  ok ok := (shedBut_none _).1 ((shedBut_none _).2 (hf.ok ok)).fdcEvent

theorem mapFeeder (f : Fin 16) (s : State) : Shed s (Machine.mapFeeder f s) where
  image := (Walk.mapFeeder (S := [.fdc]) (by decide) f s).image_eq (by decide)
  ok ok := (shedBut_none _).1 (((shedBut_none s).2 ok).mapFeeder f fun _ _ h => h)

/-! ### FDC -/

theorem reportTrip (o : Option Origin) (f : Fin 16) (ok : Bool) (s : State) :
    Shed s (Machine.reportTrip o f ok s) := ofWalk (Walk.reportTrip (by decide) o f ok s)

theorem reportClose (o : Option Origin) (f : Fin 16) (ok : Bool) (s : State) :
    Shed s (Machine.reportClose o f ok s) := ofWalk (Walk.reportClose (by decide) o f ok s)

theorem settleClear (s : State) : Shed s (Machine.settleClear s) :=
  have settled : Shed s { s with fdc.settleOwed := false } :=
    ⟨rfl, shedOk_congr (s := s) rfl rfl fun _ => ⟨rfl, rfl⟩⟩
  ite (fun _ => settled.trans (emit _ _)) (fun _ => stay s)

/-- A changed origin or pre-shed load, then the move. -/
theorem modThenMove (f : Fin 16) (g : FeederRec → FeederRec) (new : FeederState) (s : State)
    (state : ∀ r, (g r).state = r.state) (service : ∀ r, (g r).outOfService = r.outOfService)
    (serves : (s.feederRec f).state ≠ .outOfService) :
    Shed s (Machine.moveFeeder f new (Machine.modFeeder f g s)) :=
  (modFeeder f g state service s).trans (moveFeeder f new _ (by rwa [modFeeder_feederRec_self, state]))

theorem beginTrip (f : Fin 16) (o : Origin) (s : State) (closed : (s.feederRec f).state = .closed) :
    Shed s (Machine.beginTrip f o s) :=
  modThenMove f _ _ s (fun _ => rfl) (fun _ => rfl) (by simp [closed])

theorem tripFeeder (f : Fin 16) (o : Origin) (s : State) : Shed s (Machine.tripFeeder f o s) := by
  unfold Machine.tripFeeder; split
  · next h =>
    have closed : (s.feederRec f).state = .closed := by simp_all
    exact fdcEvent _ s (beginTrip f o s closed)
  · split
    · exact emit _ s
    · exact stay s

theorem closeFeeder (f : Fin 16) (o : Origin) (s : State) : Shed s (Machine.closeFeeder f o s) := by
  unfold Machine.closeFeeder; split
  · next h =>
    have serves : (s.feederRec f).state ≠ .outOfService := fun e => by simp [e] at h
    exact fdcEvent _ s (modThenMove f _ _ s (fun _ => rfl) (fun _ => rfl) serves)
  · exact reportClose _ _ _ s

theorem restoreNext (c : Fin 24) (s : State) : Shed s (Machine.restoreNext c s) := by
  unfold Machine.restoreNext; split
  · exact emit _ s
  · exact ite (fun _ => closeFeeder _ _ s) (fun _ => emit _ s)

theorem tripIfClearing (f : Fin 16) (s : State) : Shed s (Machine.tripIfClearing f s) := by
  unfold Machine.tripIfClearing; split
  · next h =>
    have closed : (s.feederRec f).state = .closed := by simp_all
    exact beginTrip f _ s closed
  · exact stay s

theorem confirmTrip (f : Fin 16) (s : State) (serves : (s.feederRec f).state ≠ .outOfService) :
    Shed s (Machine.confirmTrip f s) :=
  ((moveFeeder f _ s serves).trans
    (modFeeder f (fun r => { r with origin := none }) (fun _ => rfl) (fun _ => rfl) _)).trans (reportTrip _ _ _ _)

theorem confirmClose (f : Fin 16) (s : State) (serves : (s.feederRec f).state ≠ .outOfService) :
    Shed s (Machine.confirmClose f s) :=
  ((moveFeeder f _ s serves).trans
    (modFeeder f (fun r => { r with origin := none }) (fun _ => rfl) (fun _ => rfl) _)).trans (reportClose _ _ _ _)

theorem feederFallen (f : Fin 16) (s : State) : Shed s (Machine.feederFallen f s) := by
  have moved : ∀ st, (s.feederRec f).state = st → st ≠ .outOfService →
      Shed s (Machine.settleClear (Machine.moveFeeder f .openExt s)) :=
    fun st e h => (moveFeeder f _ s (e ▸ h)).trans (settleClear _)
  unfold Machine.feederFallen; split
  case h_1 e => exact (confirmTrip f s (by simp [e])).trans (settleClear _)
  case h_2 e => exact moved _ e (by decide)
  case h_3 e => exact moved _ e (by decide)
  all_goals exact stay s

theorem feederRisen (f : Fin 16) (s : State) : Shed s (Machine.feederRisen f s) := by
  have moved : ∀ st, (s.feederRec f).state = st → st ≠ .outOfService →
      Shed s (Machine.settleClear (Machine.tripIfClearing f (Machine.moveFeeder f .closed s))) :=
    fun st e h => ((moveFeeder f _ s (e ▸ h)).trans (tripIfClearing f _)).trans (settleClear _)
  unfold Machine.feederRisen; split
  case h_1 e => exact ((confirmClose f s (by simp [e])).trans (tripIfClearing f _)).trans (settleClear _)
  case h_2 e => exact moved _ e (by decide)
  case h_3 e => exact moved _ e (by decide)
  case h_4 e => exact moved _ e (by decide)
  all_goals exact stay s

theorem breakerExpired (f : Fin 16) (s : State) (serves : (s.feederRec f).state ≠ .outOfService) :
    Shed s (Machine.breakerExpired f s) := by
  have failed := (moveFeeder f .failed s serves).trans
    (modFeeder f (fun r => { r with origin := none }) (fun _ => rfl) (fun _ => rfl) _)
  unfold Machine.breakerExpired
  refine (Shed.trans (failed.trans ?_) (emit _ _)).trans (settleClear _)
  exact ite (fun _ => reportTrip _ _ _ _) (fun _ => reportClose _ _ _ _)

theorem fdcEngage (s : State) : Shed s (Machine.fdcEngage s) := fdcEvent _ s (forAll 16 _ mapFeeder s)

theorem clearBus (s : State) : Shed s (Machine.clearBus s) := by
  have cleared : Shed s { s with fdc.clearFlag := true, fdc.settleOwed := true } :=
    ⟨rfl, shedOk_congr (s := s) rfl rfl fun _ => ⟨rfl, rfl⟩⟩
  have tripped := forAll 16 (fun f s => if (s.feederRec f).state = .closed then Machine.tripFeeder f .blackstart s else s)
    (fun f s => ite (fun _ => tripFeeder f _ s) (fun _ => stay s))
  unfold Machine.clearBus
  exact (cleared.trans (tripped _)).trans (settleClear _)

theorem feederOut (f : Fin 16) (s : State) : Shed s (Machine.feederOut f s) := by
  refine fdcEvent _ s ⟨(Walk.moveFeeder (S := [.fdc]) (by decide) f _ _).image_eq (by decide), fun ok => ?_⟩
  refine (shedBut_none _).1 (((ok.but (· = f)).modFeeder f (fun r => { r with outOfService := true, preShed := none })
    (fun _ => rfl) fun h => absurd rfl h).moveFeeder f .outOfService (fun h e _ => ?_) fun _ _ => rfl)
  exact Ne.symm e

theorem feederIn (f : Fin 16) (s : State) : Shed s (Machine.feederIn f s) := by
  refine fdcEvent _ s ⟨(Walk.mapFeeder (S := [.fdc]) (by decide) f _).image_eq (by decide), fun ok => ?_⟩
  refine (shedBut_none _).1 (((ok.but (· = f)).modFeeder f (fun r => { r with outOfService := false })
    (fun _ => rfl) fun h => absurd rfl h).mapFeeder f fun h e _ => ?_)
  exact Ne.symm e

theorem feederAction (a : FeederAction) (f : Fin 16) {s t : State} (h : Machine.feederAction a f s = some t) :
    Shed s t := by
  cases a <;> simp only [Machine.feederAction] at h
  case trip =>
    split at h
    · exact Option.some.inj h ▸ tripFeeder f _ s
    · exact absurd h nofun
  case close =>
    split at h
    · exact Option.some.inj h ▸ closeFeeder f _ s
    · exact absurd h nofun
  case takeOut =>
    split at h
    · exact absurd h nofun
    · split at h
      · exact Option.some.inj h ▸ stay s
      · exact Option.some.inj h ▸ feederOut f s
  case bringIn =>
    split at h
    · exact Option.some.inj h ▸ feederIn f s
    · exact Option.some.inj h ▸ stay s

end Shed
end Sys2Proof.Machine

/-!
SUPPORT. `Shed` for the mapping of all feeders, the rebuild, BSS, CHU, the modes, a cascade and the settings; then every
command (R135, log entry 63).
-/
namespace Sys2Proof.Machine

/-! ### All feeders at once (R142 to R144) -/

/-- The mapping reads nothing that it writes. -/
theorem mappedFeeder_mapFeeder (f h : Fin 16) (s : State) : (mapFeeder f s).mappedFeeder h = s.mappedFeeder h := by
  have image : (mapFeeder f s).sst.image = s.sst.image :=
    (Walk.mapFeeder (S := [.fdc]) (by decide) f s).image_eq (by decide)
  unfold State.mappedFeeder; dsimp only
  rw [feederInstalled_congr image]
  by_cases e : f = h
  · subst e; rw [mapFeeder_self]
  · rw [mapFeeder_other f h s e]

/-- The mapping of every feeder gives each the state that the mapping gives. -/
theorem forAll_mapFeeder_state (s : State) (f : Fin 16) :
    ((forAll 16 mapFeeder s).feederRec f).state = (forAll 16 mapFeeder s).mappedFeeder f := by
  refine forAll_all mapFeeder (fun f t => (t.feederRec f).state = t.mappedFeeder f) (fun i t => ?_) (fun i j t e h => ?_) s f
  · rw [mappedFeeder_mapFeeder, mapFeeder_self]
  · rw [mappedFeeder_mapFeeder, mapFeeder_other i j t e, h]

theorem mappedFeeder_ne_openShed (s : State) (f : Fin 16) : s.mappedFeeder f ≠ .openShed := by
  intro h
  rcases mappedFeeder_cases s f with e | e | e <;> cases h.symm.trans e

/-- The feeders of the rebuilt queue (R142). -/
theorem mem_rebuiltQueue (s : State) (f : Fin 16) :
    f ∈ s.rebuiltQueue ↔ (s.feederInstalled f = true ∧ (s.feederRec f).outOfService = false) ∧
      ((s.feederRec f).state = .openShed ∨ (s.feederRec f).state = .openExt) := by
  unfold State.rebuiltQueue
  rw [(Quiet.foldr_insertRanked_perm s _).mem_iff]
  simp

/-- One feeder of the rebuild: it joins OPEN_SHED when the new queue `q` names it (R142). -/
def joinShed (q : List (Fin 16)) (f : Fin 16) (s : State) : State :=
  if f ∈ q then moveFeeder f .openShed s else s

theorem joinShed_image (q : List (Fin 16)) (f : Fin 16) (s : State) : (joinShed q f s).sst.image = s.sst.image :=
  (Walk.ite (S := [.fdc]) (fun _ => Walk.moveFeeder (by decide) f _ s) (fun _ => Walk.stay s)).image_eq (by decide)

theorem forAll_joinShed_image (q : List (Fin 16)) (s : State) :
    (forAll 16 (joinShed q) s).sst.image = s.sst.image :=
  forAll_keeps _ (·.sst.image) (joinShed_image q) s

theorem forAll_joinShed_state (q : List (Fin 16)) (s : State) (f : Fin 16) :
    ((forAll 16 (joinShed q) s).feederRec f).state = if f ∈ q then .openShed else (s.feederRec f).state := by
  split
  · next h =>
    refine forAll_all (joinShed q) (fun f t => f ∈ q → (t.feederRec f).state = .openShed) (fun i t hi => ?_)
      (fun i j t e hj k => ?_) s f h
    · rw [joinShed, if_pos hi, moveFeeder_state]
    · rw [joinShed]; split
      · rw [moveFeeder_other i j _ t e, hj k]
      · exact hj k
  · next h =>
    refine forAll_keeps (joinShed q) (fun t => (t.feederRec f).state) (fun i t => ?_) s
    dsimp only [joinShed]; split
    · next k => rw [moveFeeder_other i f _ t fun e => h (e ▸ k)]
    · rfl

theorem forAll_joinShed_outOfService (q : List (Fin 16)) (s : State) (f : Fin 16) :
    ((forAll 16 (joinShed q) s).feederRec f).outOfService = (s.feederRec f).outOfService := by
  refine forAll_keeps (joinShed q) (fun t => (t.feederRec f).outOfService) (fun i t => ?_) s
  dsimp only [joinShed]; split
  · rw [moveFeeder_outOfService]
  · rfl

/-- The rebuild, its steps by name (R142). -/
theorem rebuildQueue_eq (s : State) :
    rebuildQueue s = fdcEvent (fun s => notify .feeder 0 [rebuildMarker, sField s.rebuiltQueue.length]
      { forAll 16 (joinShed s.rebuiltQueue) { s with fdc.clearFlag := false } with
        fdc.queue := s.rebuiltQueue }) s := rfl

namespace Shed
variable {s t : State}

/-- The mapping of every feeder, and an empty queue: no mapped state is OPEN_SHED. -/
theorem mapAll {u : State} (image : u.sst.image = s.sst.image) :
    Shed s (dropRestoreQueue (Machine.forAll 16 Machine.mapFeeder u)) := by
  have mapped := forAll_mapFeeder_state u
  have unchanged := forAll_keeps Machine.mapFeeder (·.sst.image)
    (fun i s => (Walk.mapFeeder (S := [.fdc]) (by decide) i s).image_eq (by decide)) u
  generalize Machine.forAll 16 Machine.mapFeeder u = v at mapped unchanged
  refine ⟨unchanged.trans image, fun _ => ⟨List.nodup_nil, fun f => ?_, fun f out => ?_⟩⟩
  · exact ⟨fun h => absurd h List.not_mem_nil,
      fun h => absurd ((mapped f).symm.trans h) (mappedFeeder_ne_openShed v f)⟩
  · exact (mapped f).trans (mappedFeeder_out out)

theorem fdcAbandon (s : State) : Shed s (Machine.fdcAbandon s) := by
  unfold Machine.fdcAbandon
  exact fdcEvent _ s (mapAll rfl)

theorem rebuildQueue (s : State) : Shed s (Machine.rebuildQueue s) := by
  rw [rebuildQueue_eq]
  refine fdcEvent _ s (Shed.trans ?_ (ofWalk (Walk.notify _ _ _ _)))
  let cleared : State := { s with fdc.clearFlag := false }
  have state := forAll_joinShed_state s.rebuiltQueue cleared
  have service := forAll_joinShed_outOfService s.rebuiltQueue cleared
  have image := forAll_joinShed_image s.rebuiltQueue cleared
  refine ⟨image, fun ok => ⟨Quiet.rebuiltQueue_nodup s, fun f => ?_, fun f out => ?_⟩⟩
  · refine Iff.trans ?_ (iff_of_eq (congrArg (· = FeederState.openShed) (state f).symm))
    split
    · next h => simp [h]
    · next h =>
      refine iff_of_false h fun e => h ((mem_rebuiltQueue s f).2 ⟨?_, .inl e⟩)
      have serves := ok.serves (f := f) (by rw [show (s.feederRec f).state = .openShed from e]; decide)
      simpa using serves
  · have out : s.feederInstalled f = false ∨ (s.feederRec f).outOfService = true :=
      out.imp (fun h => (feederInstalled_congr image f).symm.trans h) fun h => (service f).symm.trans h
    have unnamed : f ∉ s.rebuiltQueue := fun h => by
      obtain ⟨⟨installed, inService⟩, -⟩ := (mem_rebuiltQueue s f).1 h
      simp [installed, inService] at out
    exact (state f).trans ((if_neg unnamed).trans (ok.2.2 f out))

/-! ### BSS -/

theorem enterClearing (c : Cause) (s : State) : Shed s (Machine.enterClearing c s) :=
  (ofWalk (Walk.beforeClear (by decide) (by decide) (by decide) (by decide) _ c s)).trans (clearBus _)

theorem enterClearing_with (c : Cause) (x : Bss) (s : State) : Shed s (Machine.enterClearing c { s with bss := x }) :=
  (ofWalk (Walk.bss (by decide) s x)).trans (enterClearing c _)

theorem startProgram (s : State) : Shed s (Machine.startProgram s) := by
  unfold Machine.startProgram
  exact enterClearing_with _ { s.bss with restarts := 0 } s

theorem retryProgram (s : State) : Shed s (Machine.retryProgram s) := by
  unfold Machine.retryProgram
  exact enterClearing_with _ { s.bss with restarts := 0 } s

theorem collapse (c : Cause) (s : State) : Shed s (Machine.collapse c s) :=
  ite (fun _ => ofWalk ((Walk.bss (by decide) s _).trans (Walk.enterFailed (by decide) _ _)))
    (fun _ => enterClearing_with c _ s)

theorem limitExpired (s : State) : Shed s (Machine.limitExpired s) :=
  ite (fun _ => collapse _ s) (fun _ => stay s)

theorem busDied (s : State) : Shed s (Machine.busDied s) := ite (fun _ => collapse _ s) (fun _ => stay s)

theorem clearSettled (s : State) : Shed s (Machine.clearSettled s) :=
  ite (fun _ => (rebuildQueue s).trans (ofWalk (Walk.enterFirst (by decide) (by decide) (by decide) _ _)))
    (fun _ => stay s)

theorem closeHead (f : Fin 16) (s : State) : Shed s (Machine.closeHead f s) :=
  (ofWalk ((Walk.bss (by decide) s _).trans (Walk.notify _ _ _ _))).trans (closeFeeder _ _ _)

theorem restoreDecision (s : State) : Shed s (Machine.restoreDecision s) := by
  have finished : ∀ c, Shed s (Machine.finish c s) := fun c =>
    ofWalk (Walk.finish (by decide) (by decide) (by decide) (by decide) c s)
  unfold Machine.restoreDecision; split
  · exact finished _
  · split
    · exact closeHead _ s
    · split
      · exact ofWalk (Walk.startForHeadroom (by decide) (by decide) (by decide) _ s)
      · exact finished _

theorem bssPass (s : State) : Shed s (Machine.bssPass s) := by
  unfold Machine.bssPass; split
  case h_1 => exact ofWalk (Walk.energizePass (by decide) s)
  case h_2 => exact ite (fun _ => restoreDecision s) (fun _ => stay s)
  all_goals exact stay s

/-! ### CHU -/

theorem shedStep (n : Fin 6) (c : Option (Fin 24)) (s : State) : Shed s (Machine.shedStep n c s).1 := by
  unfold Machine.shedStep; dsimp only; split
  · exact ofWalk (Walk.emptyStep (by decide) (by decide) _ _ _ _ s)
  · exact (ofWalk (Walk.beginStep (by decide) _ _ _ _ _ s)).trans (foldl _ _ (fun s f => tripFeeder f _ s) _)

theorem restoreStep (n : Fin 6) (c : Option (Fin 24)) (s : State) : Shed s (Machine.restoreStep n c s).1 := by
  unfold Machine.restoreStep; dsimp only; split
  · exact ofWalk (Walk.emptyStep (by decide) (by decide) _ _ _ _ s)
  · split
    · exact ofWalk (Walk.emptyStep (by decide) (by decide) _ _ _ _ s)
    · exact (ofWalk (Walk.beginStep (by decide) _ _ _ _ _ s)).trans (foldl _ _ (fun s f => closeFeeder f _ s) _)

theorem takeStep (n : Fin 6) (c : Option (Fin 24)) (s : State) : Shed s (Machine.takeStep n c s).1 := by
  have capped : ∀ d, Shed s (Machine.atOnceStep n c (moveCap d) s).1 := fun d =>
    ofWalk (Walk.atOnceStep (by decide) (by decide) _ _ _ (Walk.moveCap (by decide) d) s)
  unfold Machine.takeStep; dsimp only; split
  · exact ofWalk (Walk.atOnceStep (by decide) (by decide) _ _ _ Walk.stay s)
  · split
    · exact shedStep _ _ s
    · exact restoreStep _ _ s
    · exact ofWalk (Walk.startStep (by decide) (by decide) (by decide) _ _ s)
    · exact ofWalk (Walk.stopStep (by decide) (by decide) (by decide) _ _ s)
    · exact capped _
    · exact capped _

theorem chainsResponse (c : Fin 24) (s : State) : Shed s (Machine.chainsResponse c s) := by
  unfold Machine.chainsResponse; split
  · exact emit _ s
  · exact takeStep _ _ s

/-! ### Cascades -/

theorem deliver (m : Handover) (s : State) : Shed s (Machine.deliver m s) := by
  have rscS : .rsc ∈ besideFeeders := by decide
  have gsdS : .gsd ∈ besideFeeders := by decide
  have bssS : .bss ∈ besideFeeders := by decide
  have outS : .handovers ∈ besideFeeders := by decide
  cases m with
  | present vs => exact ofWalk (Walk.present rscS outS vs s)
  | raise c n => exact ofWalk (Walk.takeRaise rscS outS c n s)
  | complete _ c o => exact ofWalk (Walk.complete rscS outS c o s)
  | examine => exact ofWalk (Walk.examine rscS outS s)
  | startResponse c k =>
    cases k with
    | notice => exact stay s
    | chains => exact chainsResponse c s
    | startNext => exact ofWalk (Walk.startNext gsdS outS c s)
    | stopNext => exact ofWalk (Walk.stopNext gsdS outS c s)
    | restoreNext => exact restoreNext c s
    | blackStart => exact startProgram s
  | chainUnitEnd n u ok => exact ofWalk (Walk.unitEnded (by decide) outS n u ok s)
  | bssSetMoved g a b => exact ofWalk (Walk.setMoved bssS gsdS outS g a b s)
  | bssStartEnd g ok => exact ofWalk (Walk.startEnded bssS (by decide) (by decide) outS g ok s)
  | bssSettled => exact clearSettled s
  | bssTripEnd => exact stay s
  | bssCloseEnd f _ => exact ofWalk (Walk.closeEnded bssS f s)
  | bssPass => exact bssPass s
  | bssBusDead => exact busDied s

theorem drain (n : Nat) (s : State) : Shed s (Machine.drain n s) := by
  have queued : ∀ x s, Shed s { s with handovers := x } := fun x s => ofWalk (Walk.handovers (by decide) s x)
  induction n generalizing s with
  | zero => exact stay s
  | succ n ih =>
    refine ite (fun _ => stay s) (fun _ => Shed.trans ?_ (ih _))
    unfold deliverNext; split
    · exact stay s
    · exact ((queued [] s).trans (deliver _ _)).trans (queued _ _)

/-! ### Modes -/

theorem abandonWork (s : State) : Shed s (Machine.abandonWork s) :=
  ((ofWalk ((((Walk.clearActive (by decide) s).trans (Walk.idleHoldOffs (by decide) _)).trans
    (Walk.chuAbandon (by decide) _)).trans (Walk.gsdAbandon (by decide) (by decide) _))).trans
    (fdcAbandon _)).trans (ofWalk ((Walk.abortProgram (by decide) (by decide) _).trans (Walk.endSilent (by decide) _)))

theorem engageRun (s : State) : Shed s (Machine.engageRun s) :=
  ((ofWalk ((((Walk.changeMode (by decide) _ _ s).trans (Walk.ben (by decide) _ _)).trans
    (Walk.ctxEngage (by decide) _)).trans (Walk.gsdEngage (by decide) (by decide) _))).trans
    (fdcEngage _)).trans (emit _ _)

theorem disengageRun (s : State) : Shed s (Machine.disengageRun s) :=
  ((ofWalk (Walk.changeMode (by decide) .check .disengage s)).trans (abandonWork _)).trans
    (ofWalk ((Walk.clearForcedZero (by decide) _).trans (Walk.ctx (by decide) _ _)))

theorem enterSafe (c : ModeCause) (s : State) : Shed s (Machine.enterSafe c s) := by
  rw [enterSafe_eq]
  exact ((ofWalk (Walk.safeEntered (by decide) (by decide) c s)).trans (abandonWork _)).trans
    (ofWalk ((Walk.clearForcedZero (by decide) _).trans (Walk.beginFault (by decide) _)))

theorem scanMismatch (s : State) : Shed s (Machine.scanMismatch s) := by
  have entered := (ofWalk (Walk.store (by decide) s { s.sst with settingsFault := true } rfl)).trans
    (enterSafe .scanMismatch _)
  unfold Machine.scanMismatch
  exact entered.trans (ofWalk (Walk.setFaultLatch (by decide) _ _))

theorem restartPart (s : State) : Shed s (Machine.restartPart s) := by
  rw [restartPart_eq]
  exact ((ofWalk ((((Walk.restartEntered (by decide) (by decide) (by decide) s).trans (Walk.ben (by decide) _ _)).trans
    (Walk.chuRestart (by decide) _)).trans (Walk.gsdAbandon (by decide) (by decide) _))).trans (fdcAbandon _)).trans
    (ofWalk ((Walk.bssRestart (by decide) (by decide) _).trans (Walk.ctxRestart (by decide) _)))

end Shed
end Sys2Proof.Machine

/-!
SUPPORT. The second invariant of R135 through the settings and every command (log entry 63).
-/
namespace Sys2Proof.Machine

/-! ### Settings: a changed feeder installed item is mapped (R143, R172) -/

/-- An item that a WRITE changed is handed to its owner, or was not named. -/
theorem mem_changedItems_of_ne {old new : Image} {l : List ItemName} {k : ItemName} (named : k ∈ l)
    (changed : old.get k ≠ new.get k) : k ∈ changedItems old new l := by
  induction l with
  | nil => exact named
  | cons a rest ih =>
    rw [changedItems]
    by_cases later : k ∈ rest
    · split
      · exact ih later
      · exact List.mem_cons_of_mem _ (ih later)
    · obtain rfl : k = a := (List.mem_cons.1 named).resolve_right later
      rw [if_neg (not_or.2 ⟨later, changed⟩)]
      exact List.mem_cons_self

/-- An item of FEEDER that no entry names is as it was. -/
theorem applyItems_feeder (m : Image) (items : List RawItem) (f : Fin 16) (i : Fin 4)
    (unnamed : ItemName.feeder f i ∉ items.filterMap RawItem.name) :
    (applyItems m items).get (.feeder f i) = m.get (.feeder f i) := by
  unfold applyItems
  induction items generalizing m with
  | nil => rfl
  | cons r rest ih =>
    rw [List.foldl_cons]
    cases name : r.name with
    | none =>
      rw [List.filterMap_cons_none name] at unnamed
      exact ih m unnamed
    | some k =>
      rw [List.filterMap_cons_some name, List.mem_cons, not_or] at unnamed
      obtain ⟨other, unnamed⟩ := unnamed
      refine (ih _ unnamed).trans ?_
      show (applyItem m k r.value).get _ = _
      by_cases nom : k = .sys Sys.fNom
      · subst nom; exact applyItem_fNom_get_other m _ (by simp)
      · rw [applyItem_of_ne nom, Image.get_put_ne _ _ (Ne.symm other)]

theorem feederInstalled_congr_get {s t : State} {f : Fin 16}
    (same : t.sst.image.get (.feeder f 0) = s.sst.image.get (.feeder f 0)) :
    t.feederInstalled f = s.feederInstalled f := by
  unfold State.feederInstalled State.setting; rw [same]

/-- Each changed feeder that is still to come is mapped when it comes. -/
theorem shedOk_itemsWritten (t : State) (l : List ItemName) (s : State)
    (ok : s.ShedBut fun f => ItemName.feeder f 0 ∈ l) : (itemsWritten t l s).ShedOk := by
  induction l generalizing s with
  | nil => exact (shedBut_none s).1 (by simpa using ok)
  | cons k rest ih =>
    refine ih _ ?_
    by_cases other : ∀ f, k ≠ .feeder f 0
    · have w : Walk besideFeeders s (itemWritten t k rest s) :=
        Walk.itemWritten_other (by decide) (by decide) (by decide) (by decide) (by decide) t k rest s other
      have rows : ∀ f, (itemWritten t k rest s).feederRec f = s.feederRec f := fun f => by
        simp only [State.feederRec, w.fdc_eq (by decide)]
      have kept : (itemWritten t k rest s).ShedBut fun f => ItemName.feeder f 0 ∈ k :: rest :=
        shedBut_congr (by rw [w.fdc_eq (by decide)]) (fun f => by rw [rows]) (fun f _ => by rw [rows])
          (fun f _ => feederInstalled_congr (w.image_eq (by decide)) f) ok
      exact ⟨kept.1, kept.2.1, fun f h => kept.2.2 f (by simp [h, Ne.symm (other f)])⟩
    · obtain ⟨f, rfl⟩ := Classical.not_forall_not.1 other
      exact (ok.mapFeeder f fun h e notLater => by simp [notLater, Ne.symm e]).fdcEvent

/-- An accepted WRITE (R172). -/
theorem shedOk_takeWrite {items : List RawItem} {copy : Image} {s : State} (ok : s.ShedOk)
    (written : writeImage s.sst.image items = .ok copy) : (takeWrite items copy s).ShedOk := by
  have copied : copy = applyItems s.sst.image items := by
    unfold writeImage at written
    split at written
    · exact absurd written nofun
    · split at written
      · exact absurd written nofun
      · dsimp only at written; split at written
        · exact absurd written nofun
        · exact (Except.ok.inj written).symm
  refine shedOk_itemsWritten s _ _ (shedBut_congr (s := s) rfl (fun _ => rfl) (fun _ _ => rfl) (fun f unchanged => ?_)
    (ok.but _))
  refine feederInstalled_congr_get ?_
  refine Classical.byContradiction fun differs => ?_
  refine unchanged (mem_changedItems_of_ne ?_ (Ne.symm differs))
  refine Classical.byContradiction fun unnamed => ?_
  exact differs (copied ▸ applyItems_feeder _ items f 0 unnamed)

/-- An accepted TUNE: no item of FEEDER is tunable (R174). -/
theorem shedOk_takeTune {k : ItemName} (v : Int) {s : State} (ok : s.ShedOk) (tunable : k.tunable = true) :
    (takeTune k v s).ShedOk := by
  refine (shedBut_none _).1 (shedBut_congr (s := s) rfl (fun _ => rfl) (fun _ _ => rfl) (fun f _ => ?_)
    ((shedBut_none s).2 ok))
  refine feederInstalled_congr_get (Image.get_put_ne _ _ ?_)
  rintro rfl
  exact absurd tunable nofun

/-! ### Requests and events -/

theorem State.ShedOk.ite {p : Prop} [Decidable p] {f g : State} (hf : p → f.ShedOk) (hg : ¬p → g.ShedOk) :
    (if p then f else g).ShedOk := by
  split
  · exact hf ‹_›
  · exact hg ‹_›

section
variable {s : State} (ok : s.ShedOk)
include ok

theorem shedOk_answer (kind tag : Byte) (st : Status) (vs : List Byte) : (answer kind tag st vs s).ShedOk :=
  (Shed.ofWalk (Walk.answer (by decide) kind tag st vs s)).ok ok

theorem shedOk_takeRequest (kind tag : Byte) (body : List Byte) (fits : Bool) (act : Reply → State → State)
    (acts : ∀ s : State, s.ShedOk → (act (answer kind tag) s).ShedOk) :
    (takeRequest kind tag body fits act s).ShedOk := by
  have serve : ∀ s : State, s.ShedOk → (serveRequest kind tag fits act s).ShedOk := fun s ok => by
    unfold serveRequest; split
    · exact (Shed.drain _ _).ok (acts s ok)
    · exact shedOk_answer ok _ _ _ _
  have sent : ∀ s, Shed s (sendReply s) := fun s => Shed.ofWalk (Walk.sendReply (by decide) s)
  unfold takeRequest; split
  · exact ok
  · split
    · exact serve _ ((sent s).ok ok)
    · split
      · exact serve _ (((Shed.ofWalk (Walk.link (by decide) s _)).trans (sent _)).ok ok)
      · exact ok

theorem shedOk_takeEvent (f : State → State) (acts : Shed s (f s)) : (takeEvent f s).ShedOk := by
  unfold takeEvent; split
  · exact ok
  · exact (acts.trans (Shed.drain _ _)).ok ok

theorem shedOk_takeInput (level f : State → State) (hl : Shed s (level s)) (hf : ∀ s, Shed s (f s)) :
    (takeInput level f s).ShedOk := by
  unfold takeInput; split
  · exact hl.ok ok
  · exact ((hl.trans (hf _)).trans (Shed.drain _ _)).ok ok

end

namespace Shed

theorem expire (timer : Option Tick) (f : State → State) (s : State) (hf : ∀ t, t.fdc = s.fdc → Shed t (f t)) :
    Shed s (Machine.expire timer f s) := by
  cases timer with
  | none => exact stay s
  | some due =>
    have time : Walk besideFeeders s (advanceTo due s) := Walk.advanceTo (by decide) (by decide) (by decide) due s
    exact (ofWalk time).trans (hf _ (time.fdc_eq (by decide)))

theorem completeScan (s : State) : Shed s (Machine.completeScan s) := by
  unfold Machine.completeScan; split
  · exact stay s
  · exact (ofWalk (Walk.advanceTo (by decide) (by decide) (by decide) _ s)).trans
      (ite (fun _ => ofWalk (Walk.startScan (by decide) _)) (fun _ => scanMismatch _))

theorem feederInputActs (inRun : Fin 16 → State → State) (hf : ∀ f s, Shed s (inRun f s)) (f : Fin 16) (s : State) :
    Shed s (Machine.feederInputActs inRun f s) :=
  fdcEvent _ s (by
    split
    · exact hf f s
    · exact mapFeeder f s)

end Shed

theorem shedOk_feederInput {s : State} (ok : s.ShedOk) (level : Bool) (inRun : Fin 16 → State → State)
    (hf : ∀ f s, Shed s (inRun f s)) (f : Fin 16) : (feederInput level inRun f s).ShedOk := by
  unfold feederInput; split
  · exact ok
  · exact shedOk_takeInput ok _ _ (Shed.modFeeder f (fun r => { r with breaker := level }) (fun _ => rfl) (fun _ => rfl) s)
      (Shed.feederInputActs inRun hf f)

theorem shedOk_breakerTimer {s : State} (ok : s.ShedOk) (f : Fin 16) : (breakerTimer f s).ShedOk := by
  unfold breakerTimer; split
  · next runs =>
    have serves : (s.feederRec f).state ≠ .outOfService := fun e => by simp [e] at runs
    refine shedOk_takeEvent ok _ (Shed.expire _ _ s fun t same => Shed.fdcEvent _ t (Shed.breakerExpired f t ?_))
    simpa only [State.feederRec, same] using serves
  · exact ok

theorem shedOk_setInput {s : State} (ok : s.ShedOk) (now : SetRec → Bool) (level : Bool) (put : SetRec → SetRec)
    (inRun : Fin 6 → State → State) (hf : ∀ g s, Walk besideFeeders s (inRun g s)) (g : Fin 6) :
    (setInput now level put inRun g s).ShedOk := by
  have gsdS : .gsd ∈ besideFeeders := by decide
  have acts : ∀ s, Walk besideFeeders s (setInputActs inRun g s) := fun s =>
    Walk.gsdEvent gsdS _ s (Walk.whileInstalled gsdS (by decide) _ g s (by
      split
      · exact hf g s
      · exact Walk.mapSet gsdS (by decide) g s))
  unfold setInput; split
  · exact ok
  · exact shedOk_takeInput ok _ _ (Shed.ofWalk (Walk.modSet gsdS g _ s)) fun s => Shed.ofWalk (acts s)

theorem shedOk_setTimer {s : State} (ok : s.ShedOk) (st : SetState) (f : Fin 6 → State → State)
    (hf : ∀ g s, Walk besideFeeders s (f g s)) (g : Fin 6) : (setTimer st f g s).ShedOk := by
  have gsdS : .gsd ∈ besideFeeders := by decide
  have acts : ∀ s, Walk besideFeeders s (gsdEvent (whileInstalled f g) s) := fun s =>
    Walk.gsdEvent gsdS _ s (Walk.whileInstalled gsdS (by decide) f g s (hf g s))
  unfold setTimer; split
  · exact shedOk_takeEvent ok _ (Shed.ofWalk (Walk.expire (by decide) (by decide) gsdS _ _ acts s))
  · exact ok

theorem shedOk_powerOn (first second : Bool) {s t : State} (h : execPowerOn first second s = .next t) : t.ShedOk := by
  obtain rfl := Host.Outcome.next.inj h
  have out : ∀ f, ((resetFeeders s.fdc.feeders).get f).state = .outOfService := fun f => by
    rw [resetFeeders, Tab.get_mapIdx]; rfl
  refine ⟨List.nodup_nil, fun f => ⟨fun h => absurd h List.not_mem_nil, fun h => ?_⟩, fun f _ => out f⟩
  exact absurd ((out f).symm.trans h) nofun

/-- No command takes the second invariant away. -/
theorem shedOk_exec (c : Instr) {s t : State} (ok : s.ShedOk) (h : exec c s = .next t) : t.ShedOk := by
  have srxS : .srx ∈ besideFeeders := by decide
  have benS : .ben ∈ besideFeeders := by decide
  have ctxS : .ctx ∈ besideFeeders := by decide
  have rscS : .rsc ∈ besideFeeders := by decide
  have chuS : .chains ∈ besideFeeders := by decide
  have gsdS : .gsd ∈ besideFeeders := by decide
  have bssS : .bss ∈ besideFeeders := by decide
  have storeS : .store ∈ besideFeeders := by decide
  have linkS : .link ∈ besideFeeders := by decide
  have tickS : .tick ∈ besideFeeders := by decide
  have outS : .handovers ∈ besideFeeders := by decide
  have said : ∀ {s : State} kind tag st vs, s.ShedOk → (answer kind tag st vs s).ShedOk :=
    fun _ _ _ _ ok => shedOk_answer ok _ _ _ _
  have next : ∀ {u : State}, u.ShedOk → Host.Outcome.next u = (.next t : Answer) → t.ShedOk :=
    fun ok e => Host.Outcome.next.inj e ▸ ok
  have kept : ∀ {s u : State}, Walk besideFeeders s u → s.ShedOk → u.ShedOk := fun w => (Shed.ofWalk w).ok
  have timed := @Walk.expire besideFeeders tickS benS gsdS
  cases c with
  | powerOn a b => exact shedOk_powerOn a b h
  | resetNAsserted =>
    obtain rfl := Host.Outcome.next.inj h
    exact shedOk_congr (s := s) rfl rfl (fun _ => ⟨rfl, rfl⟩) ok
  | write tag body =>
    refine next (shedOk_takeRequest ok _ _ _ _ _ fun s ok => ?_) h
    unfold writeAct; split
    · split
      · exact said _ _ _ _ ok
      · next written => exact said _ _ _ _ (shedOk_takeWrite ok written)
    · exact said _ _ _ _ ok
  | tune tag body =>
    have tuned : ∀ k v (s : State), s.ShedOk → (tuneItem k v (answer 0x09 tag) s).ShedOk := fun k v s ok => by
      unfold tuneItem; split
      · split
        · exact said _ _ _ _ ok
        · next h =>
          split
          · exact said _ _ _ _ ok
          · exact kept (Walk.itemTuned rscS outS s k _) (said _ _ _ _ (shedOk_takeTune v ok (by simpa using h)))
      · exact said _ _ _ _ ok
    refine next (shedOk_takeRequest ok _ _ _ _ _ fun s ok => ?_) h
    unfold tuneAct; split
    · split
      · exact tuned _ _ s ok
      · exact said _ _ _ _ ok
    · exact said _ _ _ _ ok
  | identify => exact next (shedOk_takeRequest ok _ _ _ _ identifyAct fun _ => said _ _ _ _) h
  | read => exact next (shedOk_takeRequest ok _ _ _ _ _ fun s => kept (Walk.readAct linkS _ _ _ s)) h
  | status => exact next (shedOk_takeRequest ok _ _ _ _ _ fun s => kept (Walk.statusAct linkS _ _ _ s)) h
  | pass => exact next (shedOk_takeRequest ok _ _ _ _ passAct fun _ => said _ _ _ _) h
  | commit => exact next (shedOk_takeRequest ok _ _ _ _ _ fun s => kept (Walk.commitAct linkS _ _ _ storeS s)) h
  | engage tag =>
    have act : ∀ s : State, s.ShedOk → (engageAct (answer 0x05 tag) s).ShedOk := fun s ok => by
      unfold engageAct; split
      · exact (Shed.engageRun _).ok (said _ _ _ _ ok)
      · exact said _ _ _ _ ok
    exact next (shedOk_takeRequest ok _ _ _ _ _ act) h
  | disengage tag =>
    have act : ∀ s : State, s.ShedOk → (disengageAct (answer 0x06 tag) s).ShedOk := fun s ok => by
      unfold disengageAct; split
      · exact (Shed.disengageRun _).ok (said _ _ _ _ ok)
      · exact said _ _ _ _ ok
    exact next (shedOk_takeRequest ok _ _ _ _ _ act) h
  | safe tag =>
    have act : ∀ s : State, s.ShedOk → (safeAct (answer 0x08 tag) s).ShedOk := fun s ok => by
      unfold safeAct; split
      · exact said _ _ _ _ ok
      · exact (Shed.enterSafe _ _).ok (said _ _ _ _ ok)
    exact next (shedOk_takeRequest ok _ _ _ _ _ act) h
  | restart tag =>
    have act : ∀ s : State, s.ShedOk → (restartAct (answer 0x07 tag) s).ShedOk := fun s ok =>
      (Shed.restartPart _).ok (said _ _ _ _ ok)
    exact next (shedOk_takeRequest ok _ _ _ _ restartAct act) h
  | auto => exact next (shedOk_takeRequest ok _ _ _ _ _ fun s => kept (Walk.autoAct linkS _ _ _ rscS outS s)) h
  | force => exact next (shedOk_takeRequest ok _ _ _ _ _ fun s => kept (Walk.forceAct linkS _ _ _ rscS outS s)) h
  | clear => exact next (shedOk_takeRequest ok _ _ _ _ _ fun s => kept (Walk.clearAct linkS _ _ _ rscS s)) h
  | ack => exact next (shedOk_takeRequest ok _ _ _ _ _ fun s => kept (Walk.ackAct linkS _ _ _ rscS s)) h
  | bind => exact next (shedOk_takeRequest ok _ _ _ _ _ fun s => kept (Walk.bindAct linkS _ _ _ chuS s)) h
  | unbind => exact next (shedOk_takeRequest ok _ _ _ _ _ fun s => kept (Walk.unbindAct linkS _ _ _ chuS s)) h
  | step =>
    have act : ∀ kind tag body (s : State), s.ShedOk → (stepAct body (answer kind tag) s).ShedOk := by
      intro kind tag body s ok
      unfold stepAct; split
      · exact said _ _ _ _ ok
      · repeat' refine .ite (fun _ => said _ _ _ _ ok) fun _ => ?_
        exact said _ _ _ _ ((Shed.takeStep _ _ _).ok ok)
    exact next (shedOk_takeRequest ok _ _ _ _ _ (act _ _ _)) h
  | genset => exact next (shedOk_takeRequest ok _ _ _ _ _ fun s => kept (Walk.gensetAct linkS _ _ _ gsdS outS s)) h
  | runtime => exact next (shedOk_takeRequest ok _ _ _ _ _ fun s => kept (Walk.runtimeAct linkS _ _ _ gsdS s)) h
  | feeder =>
    have act : ∀ kind tag body (s : State), s.ShedOk → (feederAct body (answer kind tag) s).ShedOk := by
      intro kind tag body s ok
      unfold feederAct; split
      · repeat' refine .ite (fun _ => said _ _ _ _ ok) fun _ => ?_
        split
        · next done => exact said _ _ _ _ ((Shed.feederAction _ _ done).ok ok)
        · exact said _ _ _ _ ok
      · exact said _ _ _ _ ok
    exact next (shedOk_takeRequest ok _ _ _ _ _ (act _ _ _)) h
  | plant => exact next (shedOk_takeRequest ok _ _ _ _ _ fun s => kept (Walk.plantAct linkS _ _ _ ctxS s)) h
  | blackstart =>
    have act : ∀ kind tag body (s : State), s.ShedOk → (blackstartAct body (answer kind tag) s).ShedOk := by
      intro kind tag body s ok
      refine .ite (fun _ => said _ _ _ _ ok) fun _ => .ite (fun _ => said _ _ _ _ ok) fun _ =>
        .ite (fun _ => said _ _ _ _ ok) fun _ => .ite (fun _ => ?_) fun _ => ?_
      · exact said _ _ _ _ ((Shed.retryProgram s).ok ok)
      · exact said _ _ _ _ (kept (Walk.abandonProgram bssS ctxS benS outS s) ok)
    exact next (shedOk_takeRequest ok _ _ _ _ _ (act _ _ _)) h
  | requestUnknown =>
    exact next (.ite (fun _ => ok) fun _ => shedOk_takeRequest ok _ _ _ _ unknownAct fun _ => said _ _ _ _) h
  | hostFrameReceived => exact next (shedOk_takeEvent ok _ (.ofWalk (Walk.hostChars linkS _ s))) h
  | hostCharacterTimeout => exact next (shedOk_takeEvent ok _ (.ofWalk (timed _ _ (Walk.dropPartial linkS) s))) h
  | replySend => exact next (shedOk_takeEvent ok _ (.ofWalk (Walk.sendReply linkS s))) h
  | noticeSend => exact next (shedOk_takeEvent ok _ (.ofWalk (Walk.sendNotice linkS s))) h
  | powerFrame => exact next (shedOk_takeEvent ok _ (.ofWalk (Walk.takeBurst srxS _ _ (Walk.powerAct srxS) s))) h
  | busRecord =>
    exact next (shedOk_takeEvent ok _ (.ofWalk (Walk.takeBurst srxS _ _ (Walk.busAct srxS outS ctxS benS) s))) h
  | busSilenceTimerExpiry =>
    exact next (shedOk_takeEvent ok _ (.ofWalk (timed _ _ (Walk.busFellSilent srxS outS ctxS) s))) h
  | deadTimerExpiry => exact next (shedOk_takeEvent ok _ (.ofWalk (timed _ _ (Walk.busDeclaredDead srxS outS) s))) h
  | balancePass => exact next (shedOk_takeEvent ok _ (.ofWalk (Walk.takeNextPass ctxS benS outS s))) h
  | ceilingFrameSend => exact next (shedOk_takeEvent ok _ (.ofWalk (Walk.sendCeiling ctxS s))) h
  | silentFallbackTick => exact next (shedOk_takeEvent ok _ (.ofWalk (Walk.silentTickDue tickS benS gsdS ctxS s))) h
  | faultFallbackTick => exact next (shedOk_takeEvent ok _ (.ofWalk (Walk.faultTickDue tickS benS gsdS ctxS s))) h
  | holdOffExpiry => exact next (shedOk_takeEvent ok _ (.ofWalk (timed _ _ (Walk.holdOffEnded rscS outS _) s))) h
  | runningRises g => exact next (shedOk_setInput ok _ _ _ _ (Walk.runningRisen gsdS outS) g) h
  | runningFalls g => exact next (shedOk_setInput ok _ _ _ _ (Walk.runningFallen gsdS outS) g) h
  | breakerRises g => exact next (shedOk_setInput ok _ _ _ _ (Walk.setBreakerRisen gsdS outS) g) h
  | breakerFalls g => exact next (shedOk_setInput ok _ _ _ _ (Walk.setBreakerFallen gsdS outS) g) h
  | readyRises g => exact next (shedOk_setInput ok _ _ _ _ (Walk.readyRisen gsdS outS) g) h
  | readyFalls g => exact next (shedOk_setInput ok _ _ _ _ (Walk.readyFallen gsdS outS) g) h
  | crankTimerExpiry g => exact next (shedOk_setTimer ok _ _ (Walk.crankExpired gsdS outS) g) h
  | restTimerExpiry g => exact next (shedOk_setTimer ok _ _ (Walk.restExpired gsdS outS) g) h
  | syncTimerExpiry g => exact next (shedOk_setTimer ok _ _ (Walk.syncExpired gsdS outS) g) h
  | stopTimerExpiry g => exact next (shedOk_setTimer ok _ _ (Walk.stopExpired gsdS outS) g) h
  | minRunTimerExpiry g =>
    refine next (shedOk_takeEvent ok _ (.ofWalk (timed _ _ (fun s => ?_) s))) h
    exact Walk.gsdEvent gsdS _ s (Walk.whileInstalled gsdS outS _ g s (Walk.modSet gsdS g _ s))
  | runSecond g => exact next (shedOk_takeEvent ok _ (.ofWalk (Walk.runSecondDue tickS benS gsdS g s))) h
  | feederBreakerFalls f => exact next (shedOk_feederInput ok _ _ Shed.feederFallen f) h
  | feederBreakerRises f => exact next (shedOk_feederInput ok _ _ Shed.feederRisen f) h
  | breakerTimerExpiry f => exact next (shedOk_breakerTimer ok f) h
  | firstCloseTimerExpiry =>
    exact next (shedOk_takeEvent ok _ (.ofWalk (timed _ _ (Walk.firstCloseExpired bssS gsdS outS) s))) h
  | energizeTimerExpiry => exact next (shedOk_takeEvent ok _ (.ofWalk (timed _ _ (Walk.energizeExpired bssS) s))) h
  | energizeLimitTimerExpiry =>
    exact next (shedOk_takeEvent ok _ (Shed.expire _ _ s fun t _ => Shed.limitExpired t)) h
  | settleTimerExpiry => exact next (shedOk_takeEvent ok _ (.ofWalk (timed _ _ (Walk.settleExpired bssS) s))) h
  | scanItemRead => exact next (shedOk_takeEvent ok _ (.ofWalk (Walk.readScanItem tickS benS gsdS storeS s))) h
  | scanCompletion => exact next (shedOk_takeEvent ok _ (Shed.completeScan s)) h
  | sampleFrameReceived => exact next (shedOk_takeEvent ok _ (.ofWalk (Walk.receiveBurst srxS _ s))) h

theorem Shed.idle (s : State) : Shed s (Machine.idle s) := by
  unfold Machine.idle
  refine ite (fun _ => stay s) fun _ => ite (fun _ => drain _ s) fun _ => ?_
  split
  · exact ofWalk (Walk.advance (by decide) (by decide) (by decide) 1 s)
  · exact ⟨rfl, shedOk_congr (s := s) rfl rfl fun _ => ⟨rfl, rfl⟩⟩

/-- Settles O13: the first invariant is among the facts every step keeps; the second by `shedOk_exec` and the idle step. -/
theorem restoreQueueStaysInStep : Obligations.RestoreQueueStaysInStep := by
  refine ⟨fun _ _ ok h => (Keeps.step h).restore ok, fun s t ok h => ?_⟩
  unfold step at h; split at h
  · exact Host.Outcome.next.inj h ▸ (Shed.idle s).ok ok
  · next rest _ =>
    have popped : ({ s with pending := rest } : State).ShedOk :=
      shedOk_congr (s := s) rfl rfl (fun _ => ⟨rfl, rfl⟩) ok
    exact shedOk_exec _ popped h

end Sys2Proof.Machine

/-!
SUPPORT. Codes, frames and the host link: items and the check order (R175, R195), sample frames (R3, R194), requests
that do not fit, IDENTIFY, PASS and STATUS, and what the transmitter sends first (R181 to R189).
-/
namespace Sys2Proof.Machine

/-! ### Items (R175, R195) -/

theorem itemOfCodes_codes (k : ItemName) : itemOfCodes k.codes.1 k.codes.2.1 k.codes.2.2 = some k := by
  cases k <;> simp [ItemName.codes, itemOfCodes]

/-- Settles O19: the codes and the form of an item, each with its lemma. -/
theorem settingsItemReadsBack : Obligations.SettingsItemReadsBack :=
  ⟨itemOfCodes_codes, fun k v lo hi => ⟨rawItems_itemBytes k lo hi, RawItem.of_name k v⟩⟩

theorem mem_rowsOf {n m : Nat} (mk : Fin n → Fin m → ItemName) (r : Fin n) (f : Fin m) : mk r f ∈ rowsOf n m mk :=
  List.mem_flatMap.2 ⟨r, List.mem_finRange r, List.mem_map.2 ⟨f, List.mem_finRange f, rfl⟩⟩

theorem mem_checkOrder (k : ItemName) : k ∈ checkOrder := by
  simp only [checkOrder, List.mem_append, List.mem_map, List.mem_finRange, true_and]
  cases k with
  | sys f => exact .inl (.inl (.inl (.inl (.inl (.inl ⟨f, rfl⟩)))))
  | gen r f => exact .inl (.inl (.inl (.inl (.inl (.inr (mem_rowsOf _ r f))))))
  | plant r f => exact .inl (.inl (.inl (.inl (.inr (mem_rowsOf _ r f)))))
  | feeder r f => exact .inl (.inl (.inl (.inr (mem_rowsOf _ r f))))
  | cond r f => exact .inl (.inl (.inr (mem_rowsOf _ r f)))
  | shed r f => exact .inl (.inr (mem_rowsOf _ r f))
  | merit f => exact .inr ⟨f, rfl⟩

/-- One item stands before another in table, row and field. -/
def codesBefore (a b : ItemName) : Prop :=
  a.codes.1 < b.codes.1 ∨ a.codes.1 = b.codes.1 ∧
    (a.codes.2.1 < b.codes.2.1 ∨ a.codes.2.1 = b.codes.2.1 ∧ a.codes.2.2 < b.codes.2.2)

/-- The cells of a table ascend by row and field. -/
theorem rowsOf_pairwise {n m : Nat} (mk : Fin n → Fin m → ItemName) (table : Nat)
    (codes : ∀ r f, (mk r f).codes = (table, r.val, f.val)) : (rowsOf n m mk).Pairwise codesBefore := by
  refine List.pairwise_flatMap.2 ⟨fun r _ => ?_, (List.pairwise_lt_finRange n).imp fun {r r'} less a ha b hb => ?_⟩
  · refine List.pairwise_map.2 ((List.pairwise_lt_finRange m).imp fun {f f'} less => ?_)
    rw [codesBefore, codes, codes]
    exact .inr ⟨rfl, .inr ⟨rfl, less⟩⟩
  · obtain ⟨f, -, rfl⟩ := List.mem_map.1 ha
    obtain ⟨f', -, rfl⟩ := List.mem_map.1 hb
    rw [codesBefore, codes, codes]
    exact .inr ⟨rfl, .inl less⟩

/-- The items of a table of rows have its code. -/
theorem table_of_mem_rowsOf {n m : Nat} {mk : Fin n → Fin m → ItemName} {table : Nat}
    (codes : ∀ r f, (mk r f).codes.1 = table) {k : ItemName} (h : k ∈ rowsOf n m mk) : k.codes.1 = table := by
  obtain ⟨r, -, h⟩ := List.mem_flatMap.1 h
  obtain ⟨f, -, rfl⟩ := List.mem_map.1 h
  exact codes r f

/-- Items that ascend, followed by the items of a later table. -/
theorem pairwise_append_table {l l' : List ItemName} (table : Nat) (low : ∀ k ∈ l, k.codes.1 < table)
    (high : ∀ k ∈ l', k.codes.1 = table) (first : l.Pairwise codesBefore) (second : l'.Pairwise codesBefore) :
    (l ++ l').Pairwise codesBefore ∧ ∀ k ∈ l ++ l', k.codes.1 < table + 1 := by
  refine ⟨List.pairwise_append.2 ⟨first, second, fun a ha b hb => .inl ?_⟩, fun k hk => ?_⟩
  · rw [high b hb]; exact low a ha
  · rcases List.mem_append.1 hk with h | h
    · exact Nat.lt_succ_of_lt (low k h)
    · exact Nat.lt_succ_of_le (Nat.le_of_eq (high k h))

theorem checkOrder_pairwise : checkOrder.Pairwise codesBefore := by
  have rows := fun {n m} (mk : Fin n → Fin m → ItemName) (table : Nat)
    (codes : ∀ r f, (mk r f).codes = (table, r.val, f.val)) =>
      And.intro (rowsOf_pairwise mk table codes)
        (fun k (h : k ∈ rowsOf n m mk) => table_of_mem_rowsOf (table := table) (fun r f => by rw [codes]) h)
  have sys : ((List.finRange 38).map ItemName.sys).Pairwise codesBefore :=
    List.pairwise_map.2 ((List.pairwise_lt_finRange 38).imp fun less => .inr ⟨rfl, .inr ⟨rfl, less⟩⟩)
  have merit : ((List.finRange 7).map ItemName.merit).Pairwise codesBefore :=
    List.pairwise_map.2 ((List.pairwise_lt_finRange 7).imp fun less => .inr ⟨rfl, .inr ⟨rfl, less⟩⟩)
  obtain ⟨gen, inGen⟩ := rows .gen 1 fun _ _ => rfl
  obtain ⟨plant, inPlant⟩ := rows .plant 2 fun _ _ => rfl
  obtain ⟨feeder, inFeeder⟩ := rows .feeder 3 fun _ _ => rfl
  obtain ⟨cond, inCond⟩ := rows .cond 4 fun _ _ => rfl
  obtain ⟨shed, inShed⟩ := rows .shed 5 fun _ _ => rfl
  have toGen := pairwise_append_table 1 (by simp [ItemName.codes]) inGen sys gen
  have toPlant := pairwise_append_table 2 toGen.2 inPlant toGen.1 plant
  have toFeeder := pairwise_append_table 3 toPlant.2 inFeeder toPlant.1 feeder
  have toCond := pairwise_append_table 4 toFeeder.2 inCond toFeeder.1 cond
  have toShed := pairwise_append_table 5 toCond.2 inShed toCond.1 shed
  exact (pairwise_append_table 6 toShed.2 (by simp [ItemName.codes]) toShed.1 merit).1

theorem rowsOf_length {n m : Nat} (mk : Fin n → Fin m → ItemName) : (rowsOf n m mk).length = n * m := by
  simp only [rowsOf, List.length_flatMap, List.length_map, List.length_finRange, List.map_const', List.sum_replicate_nat]

theorem checkOrder_length : checkOrder.length = 369 := by
  simp only [checkOrder, List.length_append, rowsOf_length, List.length_map, List.length_finRange]

theorem crc32Run_items (m : Image) (l : List ItemName) (reg : Word) :
    l.foldl (fun reg k => crc32Run reg (itemBytes k (m.get k))) reg =
      crc32Run reg (l.flatMap fun k => itemBytes k (m.get k)) := by
  unfold crc32Run crcRun; rw [List.foldl_flatMap]

/-- Settles O20: membership and order of the list, and the CRC as one run over its bytes. -/
theorem checkCoversEveryItemInOrder : Obligations.CheckCoversEveryItemInOrder := by
  refine ⟨mem_checkOrder, checkOrder_length, checkOrder_pairwise, fun m => ?_, fun m => ?_, fun m start n => ?_⟩
  · rw [checkOf, crc32Run_items]; rfl
  · simp only [List.length_flatMap, itemBytes_length, List.map_const', List.sum_replicate_nat, checkOrder_length]
  · simp only [Scan.readItems, ← List.foldl_append, List.take_append_drop]
    rfl

/-! ### Sample frames (R3, R194) -/

/-- What the checks of R3 make of a frame laid out by R194. -/
theorem sampleOf_sampleBytes {kind head : Nat} (hk : kind < 4) (hh : head < 32) (stamp : Stamp) (v : Int) :
    sampleOf (sampleBytes kind head stamp v) =
      if h : head < 31 then
        match kind, decide (head = 0) with
        | 1, true => some (.bus .period stamp (BitVec.ofInt 24 v).toNat)
        | 2, true => some (.bus .dead stamp 0)
        | 3, false => some (.power ⟨head, h⟩ stamp (BitVec.ofInt 24 v).toInt)
        | _, _ => none
      else none := by
  have first : (byteOf (128 + 32 * kind + head)).toNat = 128 + 32 * kind + head := byteOf_toNat (by omega)
  have top : (byteOf (128 + 32 * kind + head)).msb = true := by
    rw [BitVec.msb_eq_decide, first]; simp; omega
  have low : (stamp.setWidth 8).toNat < 64 := by
    rw [BitVec.toNat_setWidth]; have := stamp.isLt; omega
  have kindOf : (128 + 32 * kind + head) / 32 % 4 = kind := by omega
  have headOf : (128 + 32 * kind + head) % 32 = head := by omega
  have stampOf : (stamp.setWidth 8).extractLsb' 0 6 = stamp := by
    ext i hi; simp [hi]; omega
  have raw : ∀ x : BitVec 24, (x.extractLsb' 16 8 ++ x.extractLsb' 8 8 : BitVec 16) ++ x.extractLsb' 0 8 = x := by
    intro x
    have high : x.extractLsb' 16 8 ++ x.extractLsb' 8 8 = x.extractLsb' 8 16 :=
      BitVec.extractLsb'_append_extractLsb'_eq_extractLsb' rfl
    have all : x.extractLsb' 8 16 ++ x.extractLsb' 0 8 = x.extractLsb' 0 24 :=
      BitVec.extractLsb'_append_extractLsb'_eq_extractLsb' rfl
    rw [high, all, BitVec.extractLsb'_eq_self]
  simp only [sampleOf, sampleBytes, List.cons_append, List.nil_append, top, low, first, decide_true, Bool.and_true,
    if_true, kindOf, headOf, stampOf, raw] <;> rfl

theorem sampleOf_of_length {burst : List Byte} (h : burst.length ≠ 6) : sampleOf burst = none := by
  unfold sampleOf; split
  · exact absurd rfl h
  · rfl

/-- A frame whose framing or CRC is wrong is discarded. -/
theorem sampleOf_of_broken {b0 b1 b2 b3 b4 c : Byte}
    (h : (b0.msb && b1.toNat < 64 && crc8 [b0, b1, b2, b3, b4] = c) = false) :
    sampleOf [b0, b1, b2, b3, b4, c] = none := by
  simp only [sampleOf, h]; rfl

/-- The kinds that fit no head, as in the table of R194. -/
theorem sampleOf_sampleBytes_of_unfit (kind : Fin 4) (head : Fin 32) (stamp : Stamp) (v : Int)
    (unfit : ¬((kind = 1 ∨ kind = 2) ∧ head = 0 ∨ kind = 3 ∧ head ≠ 0 ∧ head ≠ 31)) :
    sampleOf (sampleBytes kind.val head.val stamp v) = none := by
  rw [sampleOf_sampleBytes kind.isLt head.isLt]
  split
  · next below =>
    have notLast : head ≠ 31 := fun e => by subst e; exact absurd below (by decide)
    by_cases zero : head = 0
    · subst zero
      match kind, unfit with
      | 0, _ => rfl
      | 1, unfit => exact absurd (.inl ⟨.inl rfl, rfl⟩) unfit
      | 2, unfit => exact absurd (.inl ⟨.inr rfl, rfl⟩) unfit
      | 3, _ => rfl
    · have positive : decide (head.val = 0) = false := decide_eq_false fun e => zero (Fin.ext e)
      rw [positive]
      match kind, unfit with
      | 0, _ => rfl
      | 1, _ => rfl
      | 2, _ => rfl
      | 3, unfit => exact absurd (.inr ⟨rfl, zero, notLast⟩) unfit
  · rfl

/-- A frame that SRX takes and discards empties the receive stage. -/
theorem takeBurst_none {burst : List Byte} (act : Sample → State → State) {s : State}
    (held : s.srx.stage = none ∨ s.srx.stage = some burst) (discarded : sampleOf burst = none) :
    takeBurst burst act s = { s with srx.stage := none } := by
  unfold takeBurst; rw [if_pos held, discarded]

/-- Another frame held stays. -/
theorem takeBurst_other {burst held : List Byte} (act : Sample → State → State) {s : State}
    (stage : s.srx.stage = some held) (other : held ≠ burst) : takeBurst burst act s = s := by
  unfold takeBurst; rw [if_neg (by simp [stage, other])]

/-- An event that hands nothing over, while RESET_N is high and nothing waits. -/
theorem takeEvent_calm {f : State → State} {s : State} (calm : s.calm) (idle : (f s).handovers = s.handovers) :
    takeEvent f s = f s := by
  rw [takeEvent_high f s calm.1, drain_nil _ _ (idle.trans calm.2)]

/-- Settles O18: the layout read back, then each reason to discard. -/
theorem sampleFrameReadsBack : Obligations.SampleFrameReadsBack := by
  refine ⟨fun stamp v hv => ⟨?_, ?_⟩, fun h stamp v zero lo hi => ?_, fun stamp v => ?_,
    fun b0 b1 b2 b3 b4 c bad => ?_, fun _ => sampleOf_of_length, sampleOf_sampleBytes_of_unfit,
    fun b0 b1 b2 b3 b4 c bad => ?_, fun s burst calm discarded => ⟨fun held => ⟨?_, ?_⟩, fun held stage other => ⟨?_, ?_⟩⟩⟩
  · rw [sampleOf_sampleBytes (by decide) (by decide)]
    simpa using hv
  · rw [sampleOf_sampleBytes (by decide) (by decide)]; rfl
  · have value : (BitVec.ofInt 24 v).toInt = v := BitVec.toInt_ofInt_eq_self (by decide) lo (by omega)
    have positive : decide (h.val = 0) = false := decide_eq_false fun e => zero (Fin.ext e)
    rw [sampleOf_sampleBytes (by decide) (by omega), dif_pos h.isLt, positive, value]
    rfl
  · rw [sampleOf_sampleBytes (by decide) (by decide), dif_neg (by decide)]
  · exact sampleOf_of_broken (by simp [Ne.symm bad])
  · refine sampleOf_of_broken ?_
    rcases bad with low | high
    · have : b0.msb = false := by rw [BitVec.msb_eq_decide]; simp; omega
      simp [this]
    · simp [Nat.not_lt.2 high]
  · exact congrArg Host.Outcome.next ((takeEvent_calm calm (by rw [takeBurst_none _ held discarded])).trans
      (takeBurst_none _ held discarded))
  · exact congrArg Host.Outcome.next ((takeEvent_calm calm (by rw [takeBurst_none _ held discarded])).trans
      (takeBurst_none _ held discarded))
  · exact congrArg Host.Outcome.next ((takeEvent_calm calm (by rw [takeBurst_other _ stage other])).trans
      (takeBurst_other _ stage other))
  · exact congrArg Host.Outcome.next ((takeEvent_calm calm (by rw [takeBurst_other _ stage other])).trans
      (takeBurst_other _ stage other))

/-! ### Requests that HLC can take (R180, R181) -/

section
variable {s : State} {kind tag : Byte} {body : List Byte}

/-- A body of no allowed length. -/
theorem takeRequest_unfit (ht : s.takes kind tag body) (act : Reply → State → State) :
    takeRequest kind tag body false act s = s.taken.replied (kind ||| 0x80) tag [2] := by
  obtain ⟨⟨high, -⟩, held⟩ := ht
  rw [takeRequest_held high held, serveRequest_unfit, sendReply_tail]
  rfl

/-- An act that answers and hands nothing over is all that the request does. -/
theorem takeRequest_answered {act : Reply → State → State} {t : State} {st : Status} {values : List Byte}
    (ht : s.takes kind tag body) (acts : ∀ reply : Reply, act reply s.taken = reply st values t)
    (idle : t.handovers = s.handovers) :
    takeRequest kind tag body true act s = t.replied (kind ||| 0x80) tag (st.code :: values) := by
  have ⟨⟨_, calm⟩, _⟩ := ht
  rw [takeRequest_taken ht, acts, cascade]
  exact drain_nil _ _ (idle.trans calm)

end

/-- Settles O25: the three cases of the FIFO, of the transmitter without a reply, and with one. -/
theorem repliesGoBeforeNotices : Obligations.RepliesGoBeforeNotices := by
  refine ⟨fun s k subject values => ⟨fun room => ?_, fun full => ?_⟩, fun s calm noReply => ⟨?_, fun empty => ?_,
    fun n rest queued => ⟨⟨n.kind.code, 0, noticeBody s.hlc.lost s.hlc.sequence n⟩, rfl, rfl, rfl, ?_⟩⟩,
    fun s calm r reply => ⟨?_, ?_⟩⟩
  · exact if_pos room
  · exact if_neg (Nat.not_lt.2 full)
  all_goals refine congrArg Host.Outcome.next ?_
  · have sent : sendReply s = s := by rw [sendReply, noReply]
    rw [takeEvent_calm calm (by rw [sent]), sent]
  · have sent : sendNotice s = s := by rw [sendNotice, noReply, empty]
    rw [takeEvent_calm calm (by rw [sent]), sent]
  · have sent := sendNotice.eq_def s
    rw [noReply, queued] at sent
    rw [takeEvent_calm calm (by rw [sent]), sent]
  · have sent := sendReply.eq_def s
    rw [reply] at sent
    rw [takeEvent_calm calm (by rw [sent]), sent]
  · have sent : sendNotice s = s := by rw [sendNotice, reply]
    rw [takeEvent_calm calm (by rw [sent]), sent]

end Sys2Proof.Machine

/-!
SUPPORT. The requests that HLC answers itself: the lengths of bodies, IDENTIFY, PASS and STATUS (R181, R184, R186, R187),
and the reception of host frames (R179, R180).
-/
namespace Sys2Proof.Machine

/-! ### Body lengths (R181, R193) -/

theorem readFits_iff (body : List Byte) : readFits body = true ↔ lengthAllowed 0x02 body := by
  unfold readFits lengthAllowed
  cases body with
  | nil => simp
  | cons b rest =>
    by_cases h : b = 7
    · simp [param, h]
    · have : b.toNat ≠ 7 := fun e => h (BitVec.eq_of_toNat_eq e)
      simp only [param, List.getD_cons_zero, this, and_false, if_false, List.head?_cons, Option.some.injEq, h,
        decide_eq_true_eq]

theorem writeFits_iff (body : List Byte) : writeFits body = true ↔ lengthAllowed 0x03 body := by
  show _ ↔ body.length % 8 = 0 ∧ 8 ≤ body.length ∧ body.length ≤ 240
  simp only [writeFits, Bool.and_eq_true, decide_eq_true_eq]
  exact ⟨fun ⟨⟨lo, hi⟩, whole⟩ => ⟨whole, lo, hi⟩, fun ⟨whole, lo, hi⟩ => ⟨⟨lo, hi⟩, whole⟩⟩

/-- Every request is HLC's to take, with a test of its body's length. -/
theorem requestOf_takes (f : HostFrame) (lo : 1 ≤ f.kind.toNat) (hi : f.kind.toNat ≤ 0x17) (s : State) :
    ∃ fits act, exec (requestOf f) s = .next (takeRequest f.kind f.tag f.body fits act s) ∧
      (fits = true ↔ lengthAllowed f.kind.toNat f.body) := by
  obtain ⟨kind, tag, body⟩ := f
  obtain ⟨n, rfl, lo, hi⟩ : ∃ n, kind = BitVec.ofNat 8 n ∧ 1 ≤ n ∧ n ≤ 0x17 := ⟨kind.toNat, by simp, lo, hi⟩
  have oneOf : ∀ a b : Nat, (decide (body.length = a) || decide (body.length = b)) = true ↔
      body.length = a ∨ body.length = b := fun a b => by simp
  obtain rfl | rfl | two | one : n = 2 ∨ n = 3 ∨ (n = 13 ∨ n = 14 ∨ n = 16 ∨ n = 17 ∨ n = 18 ∨ n = 19) ∨
      (n = 1 ∨ n = 4 ∨ n = 5 ∨ n = 6 ∨ n = 7 ∨ n = 8 ∨ n = 9 ∨ n = 10 ∨
        n = 11 ∨ n = 12 ∨ n = 15 ∨ n = 20 ∨ n = 21 ∨ n = 22 ∨ n = 23) := by omega
  · exact ⟨_, _, rfl, readFits_iff body⟩
  · exact ⟨_, _, rfl, writeFits_iff body⟩
  · rcases two with rfl | rfl | rfl | rfl | rfl | rfl <;> exact ⟨_, _, rfl, oneOf _ _⟩
  · rcases one with rfl | rfl | rfl | rfl | rfl | rfl | rfl | rfl | rfl | rfl | rfl | rfl | rfl | rfl | rfl <;>
      exact ⟨_, _, rfl, decide_eq_true_iff⟩

/-- Settles O21: no request code; a request of no allowed length. -/
theorem unfitRequestsAreRefused : Obligations.UnfitRequestsAreRefused := by
  refine fun s f ht => ⟨fun unknown => ?_, fun lo hi unfit => ?_⟩
  · have code : isRequestCode f.kind = false := by simpa [isRequestCode] using unknown
    have served : takeRequest f.kind f.tag f.body true unknownAct s = s.taken.replied (f.kind ||| 0x80) f.tag [1] :=
      takeRequest_answered ht (fun _ => rfl) rfl
    show Host.Outcome.next (if isRequestCode f.kind then s else _) = _
    rw [code, if_neg Bool.false_ne_true, served]
  · obtain ⟨fits, act, runs, allowed⟩ := requestOf_takes f lo hi s
    have refused : fits = false := Bool.eq_false_iff.2 fun h => unfit (allowed.1 h)
    have bit : f.kind ||| 0x80 = f.kind + 0x80 := (BitVec.add_eq_or_of_and_eq_zero _ _ ?_).symm
    · rw [runs, refused, takeRequest_unfit ht, bit]
    · refine BitVec.eq_of_toNat_eq ?_
      rw [BitVec.toNat_and]
      generalize f.kind.toNat = n at lo hi
      exact (by decide : ∀ n < 24, n &&& 128 = 0) n (by omega)

/-! ### IDENTIFY and PASS (R184, R187) -/

/-- A request whose act answers and hands nothing over does that alone. -/
theorem request_answered {kind tag : Byte} {body : List Byte} {fits : Bool} (act : Reply → State → State) {s t : State}
    {st : Status} {values : List Byte} (ht : s.takes kind tag body) (fit : fits = true)
    (acts : ∀ reply : Reply, act reply s.taken = reply st values t) (idle : t.handovers = s.handovers) :
    (.next (takeRequest kind tag body fits act s) : Answer) =
      .next (t.replied (kind ||| 0x80) tag (st.code :: values)) := by
  rw [fit, takeRequest_answered ht acts idle]

theorem exec_identify {s : State} {tag : Byte} (ht : s.takes 0x01 tag []) :
    exec (.identify tag []) s = .next (s.taken.replied 0x81 tag (0 :: identifyBytes s.taken)) :=
  request_answered identifyAct ht rfl (fun _ => rfl) rfl

theorem exec_pass {s : State} {tag : Byte} (ht : s.takes 0x16 tag []) :
    exec (.pass tag []) s = .next (s.taken.replied 0x96 tag (0 :: passBytes s.ben.record)) :=
  request_answered passAct ht rfl (fun _ => rfl) rfl

/-- Settles O22: IDENTIFY; PASS with a pass taken, and with the empty record. -/
theorem identifyAndPassReplies : Obligations.IdentifyAndPassReplies := by
  refine fun s tag => ⟨fun ht => exec_identify ht, fun ht b stamp => ?_, fun ht empty => ⟨Config.emptyStampByte, ?_⟩⟩
  · rw [exec_pass ht]
    simp only [passBytes, stamp]
    simp
  · rw [exec_pass ht, empty]
    rfl

/-! ### STATUS (R186) -/

/-- A section that exists is answered behind the tick and the mode. -/
theorem exec_status {s : State} {tag code : Byte} {bs : List Byte} (ht : s.takes 0x17 tag [code])
    (section_ : statusSection s.taken code.toNat = some bs) :
    exec (.status tag [code]) s =
      .next (s.taken.replied 0x97 tag (0 :: bytes32 s.tick ++ sBytes [s.sst.mode.code] ++ bs)) := by
  have named : statusSection s.taken (param [code] 0) = some bs := section_
  refine request_answered (statusAct [code]) (t := s.taken) (st := .ok) ht rfl (fun reply => ?_) rfl
  rw [statusAct, named]
  rfl

theorem sBytes_append (a b : List Int) : sBytes (a ++ b) = sBytes a ++ sBytes b := List.flatMap_append

theorem sBytes_flatMap {α : Type} (l : List α) (f : α → List Int) :
    sBytes (l.flatMap f) = l.flatMap fun a => sBytes (f a) := List.flatMap_assoc

theorem length_filterMap_map {α β γ : Type} (l : List α) (f : α → Option β) (g : α → β → γ) :
    (l.filterMap fun a => (f a).map (g a)).length = (l.filterMap f).length := by
  induction l with
  | nil => rfl
  | cons a l ih => cases h : f a <;> simp [h, ih]

/-- Settles O24: section by section, and a code that is no section. -/
theorem statusSections : Obligations.StatusSections := by
  intro s tag
  refine ⟨fun ht => exec_status ht rfl, fun ht => exec_status ht rfl, fun ht => ?_, fun ht => ?_, fun ht => ?_,
    fun ht => ?_, fun ht => exec_status ht rfl, fun ht => exec_status ht rfl, fun code above ht => ?_⟩
  · have entries := length_filterMap_map (List.finRange 7) s.rsc.active.get activeBytes
    rw [← entries]
    exact exec_status ht rfl
  · refine (exec_status ht rfl).trans ?_
    simp only [listBytes, ← sBytes_append, List.length_map]
    rfl
  · refine (exec_status ht rfl).trans ?_
    simp only [flagBytes, sBytes_append, sBytes_flatMap, List.append_assoc]
    rfl
  · refine (exec_status ht rfl).trans ?_
    have counted : ∀ (n m : Int) (vs : List Int), sBytes (n :: m :: vs) = sBytes [n] ++ sBytes (m :: vs) :=
      fun n m vs => sBytes_append [n] (m :: vs)
    simp only [listBytes, List.length_map, List.flatMap_cons, List.flatMap_nil, List.append_nil,
      counted, List.append_assoc]
    rfl
  · have none : statusSection s.taken (param [code] 0) = none := by
      obtain ⟨k, hk⟩ := Nat.exists_eq_add_of_le above
      rw [show param [code] 0 = k + 8 from hk.trans (Nat.add_comm _ _)]
      rfl
    refine request_answered (statusAct [code]) (st := .range) ht rfl (fun reply => ?_) rfl
    rw [statusAct, none]

end Sys2Proof.Machine

/-!
SUPPORT. The reception of host frames (R179, R180): what one character does to the characters of a frame, and the whole
frame or any part of it.
-/
namespace Sys2Proof.Machine

/-! ### The characters of a frame (R192) -/

/-- A frame has the length that its second character announces. -/
def Framed (w : List Byte) : Prop := w.length = 6 + announced w ∧ announced w ≤ 240

/-- The second character of a list is known from any two characters at its front. -/
theorem announced_append {q rest : List Byte} (h : 2 ≤ q.length) : announced (q ++ rest) = announced q := by
  match q, h with
  | _ :: _ :: _, _ => rfl

/-- A length, kind, tag and body, and two bytes of CRC behind them, are a frame. -/
theorem framed_of_covered {sync : Byte} {covered crc : List Byte} (len : covered.length = 3 + (covered.headD 0).toNat)
    (short : covered.length ≤ 243) (two : crc.length = 2) : Framed (sync :: covered ++ crc) := by
  match covered, len, short with
  | [], len, _ => exact absurd len (by simp)
  | n :: rest, len, short =>
    simp only [List.headD_cons, List.length_cons] at len short
    constructor
    · simp only [announced, List.cons_append, List.length_cons, List.length_append, List.getD_cons_succ,
        List.getD_cons_zero]
      omega
    · simp only [announced, List.cons_append, List.getD_cons_succ, List.getD_cons_zero]
      omega

theorem crcMatches_iff {sync : Byte} {covered crc : List Byte} (len : covered.length = 3 + (covered.headD 0).toNat) :
    crcMatches (sync :: covered ++ crc) = true ↔ crc = bytes16 (crc16 covered) := by
  have said : announced (sync :: covered ++ crc) = (covered.headD 0).toNat := by
    cases covered with
    | nil => exact absurd len (by simp)
    | cons n rest => rfl
  have taken : (sync :: covered ++ crc).tail.take (3 + (covered.headD 0).toNat) = covered := by
    rw [← len, List.cons_append, List.tail_cons, List.take_left']; rfl
  have left : (sync :: covered ++ crc).drop (4 + (covered.headD 0).toNat) = crc := by
    rw [show 4 + (covered.headD 0).toNat = covered.length + 1 by omega, List.cons_append, List.drop_succ_cons,
      List.drop_left']; rfl
  unfold crcMatches; dsimp only
  rw [said, taken, left, decide_eq_true_eq, eq_comm]

theorem frameOf_covered {sync : Byte} {covered crc : List Byte} (len : covered.length = 3 + (covered.headD 0).toNat) :
    frameOf (sync :: covered ++ crc) = ⟨covered.getD 1 0, covered.getD 2 0, covered.drop 3⟩ := by
  match covered, len with
  | [], len => exact absurd len (by simp)
  | [_], len => exact absurd len (by simp; omega)
  | [_, _], len => exact absurd len (by simp; omega)
  | n :: kind :: tag :: body, len =>
    have exact_ : n.toNat = body.length := by simp at len; omega
    show (⟨kind, tag, (body ++ crc).take n.toNat⟩ : HostFrame) = ⟨kind, tag, body⟩
    rw [exact_, List.take_left']; rfl

/-- What the frame that a host sends is made of. -/
theorem hostFrameBytes_eq (f : HostFrame) :
    hostFrameBytes f = 0xA5 :: (byteOf f.body.length :: f.kind :: f.tag :: f.body) ++
      bytes16 (crc16 (byteOf f.body.length :: f.kind :: f.tag :: f.body)) := rfl

theorem covered_length {f : HostFrame} (short : f.body.length ≤ 240) :
    (byteOf f.body.length :: f.kind :: f.tag :: f.body).length =
      3 + ((byteOf f.body.length :: f.kind :: f.tag :: f.body).headD 0).toNat := by
  rw [List.headD_cons, byteOf_toNat (by omega)]; simp; omega

theorem framed_hostFrameBytes {f : HostFrame} (short : f.body.length ≤ 240) : Framed (hostFrameBytes f) :=
  framed_of_covered (covered_length short) (by simp; omega) rfl

/-! ### One character (R179) -/

theorem placeFrame_full {w : List Byte} {s : State} (h : crcMatches w = false ∨ 2 ≤ s.hlc.slots.length) :
    placeFrame w s = s := by
  unfold placeFrame; rw [if_neg]
  rcases h with h | h
  · simp [h]
  · simp [Config.receiveSlots, Nat.not_lt.2 h]

theorem placeFrame_free {w : List Byte} {s : State} (matches_ : crcMatches w = true) (free : s.hlc.slots.length < 2) :
    placeFrame w s = { s with hlc.slots := s.hlc.slots ++ [frameOf w] } :=
  if_pos (by simp [matches_, Config.receiveSlots, free])

/-- A character that joins no frame: SYNC begins one, any other is discarded. -/
theorem hostChar_hunts {s : State} (hunts : joinable s = []) (c : Byte) :
    hostChar s c = if c = 0xA5 then holdPartial [c] s else dropPartial s := by
  unfold hostChar; rw [hunts]; rfl

/-- A character of a frame ends it or goes on with it. -/
theorem hostChar_framed {s : State} {c : Byte} {rest w : List Byte} (framed : Framed w)
    (whole : joinable s ++ c :: rest = w) (sync : joinable s = [] → c = 0xA5) :
    hostChar s c = if rest = [] then placeFrame w (dropPartial s) else holdPartial (joinable s ++ [c]) s := by
  obtain ⟨len, short⟩ := framed
  have count : (joinable s).length + 1 + rest.length = 6 + announced w := by rw [← len, ← whole]; simp; omega
  by_cases hunts : joinable s = []
  · have goesOn : rest ≠ [] := fun h => by rw [hunts, h] at count; simp at count; omega
    rw [hostChar_hunts hunts, if_pos (sync hunts), if_neg goesOn, hunts]; rfl
  · have some_ : 1 ≤ (joinable s).length := List.length_pos_iff.2 hunts
    have two : 2 ≤ (joinable s ++ [c]).length := by simp; omega
    have said : announced (joinable s ++ [c]) = announced w := by
      rw [← whole, ← announced_append (rest := rest) two, List.append_assoc]; rfl
    rw [hostChar_joins s c hunts]; dsimp only
    rw [if_neg (by rw [said]; exact fun h => absurd h.2 (Nat.not_lt.2 short)), said]
    by_cases ends : rest = []
    · subst ends
      rw [if_pos ⟨two, by rw [← len, ← whole]⟩, if_pos rfl, whole]
    · have more : 1 ≤ rest.length := List.length_pos_iff.2 ends
      rw [if_neg fun h => by have := h.2; simp at this; omega, if_neg ends]

/-! ### Characters one after another -/

/-- Characters of a frame that do not end it are held with those before them; the last of the frame ends it. -/
theorem hostChars_framed {part rest w : List Byte} (some_ : part ≠ []) {s : State} (framed : Framed w)
    (whole : joinable s ++ part ++ rest = w) (sync : w.head? = some 0xA5) :
    hostChars part s =
      if rest = [] then placeFrame w (dropPartial s) else holdPartial (joinable s ++ part) s := by
  induction part generalizing s with
  | nil => exact absurd rfl some_
  | cons c part ih =>
    have begins : joinable s = [] → c = 0xA5 := fun h => by
      rw [h] at whole; simpa [← whole] using sync
    have first := hostChar_framed (rest := part ++ rest) framed (by simpa using whole) begins
    show hostChars part (hostChar s c) = _
    by_cases last : part = []
    · subst last; exact first
    · rw [first, if_neg (by simp [last]), ih last (by rw [joinable_holdPartial]; simpa using whole),
        joinable_holdPartial]
      split
      · rfl
      · simp [holdPartial, State.dueIn]

/-- The characters that the next one joins. -/
theorem joinable_none {s : State} (hunts : s.hlc.partialFrame = none) : joinable s = [] := by
  rw [joinable, hunts]

theorem joinable_some {s : State} {p : PartialFrame} (held : s.hlc.partialFrame = some p)
    (inTime : s.remaining p.due ≠ 0) : joinable s = p.chars := by
  rw [joinable, held]; exact if_neg inTime

theorem joinable_late {s : State} {p : PartialFrame} (held : s.hlc.partialFrame = some p)
    (late : s.remaining p.due = 0) : joinable s = [] := by
  rw [joinable, held]; exact if_pos late

/-- Characters reach HLC alone. -/
theorem exec_hostFrameReceived {s : State} (calm : s.calm) (cs : List Byte) :
    exec (.hostFrameReceived cs) s = .next (hostChars cs s) :=
  congrArg Host.Outcome.next (takeEvent_calm calm
    ((Walk.hostChars (S := [.link]) (by decide) cs s).handovers_eq (by decide)))

/-- HLC that hunts has nothing to drop. -/
theorem dropPartial_none {s : State} (hunts : s.hlc.partialFrame = none) : dropPartial s = s := by
  obtain ⟨_, _, _, _, _, _, _, _, _, _, _, _, ⟨⟩, _, _⟩ := s
  subst hunts; rfl

/-- Settles O16: the whole frame as its only part, and any part of it. -/
theorem hostFrameIsHeldAsSent : Obligations.HostFrameIsHeldAsSent := by
  have parts : ∀ (s : State) (f : HostFrame) (part rest : List Byte), s.calm → f.body.length ≤ 240 →
      joinable s ++ part ++ rest = hostFrameBytes f → part ≠ [] → exec (.hostFrameReceived part) s =
        .next (if rest = [] then placeFrame (hostFrameBytes f) (dropPartial s)
          else holdPartial (joinable s ++ part) s) :=
    fun s f part rest calm short whole some_ => by
      rw [exec_hostFrameReceived calm, hostChars_framed some_ (framed_hostFrameBytes short) whole rfl]
  have placed : ∀ (s : State) (f : HostFrame), f.body.length ≤ 240 → s.hlc.slots.length < 2 →
      placeFrame (hostFrameBytes f) s = { s with hlc.slots := s.hlc.slots ++ [f] } := fun s f short free => by
    have right : crcMatches (hostFrameBytes f) = true := (crcMatches_iff (covered_length short)).2 rfl
    rw [placeFrame_free right free, hostFrameBytes_eq, frameOf_covered (covered_length short)]; rfl
  refine ⟨fun s f calm hunts free short => ?_, fun s f had part rest calm short whole some_ joins => ?_⟩
  · rw [parts s f _ [] calm short (by rw [joinable_none hunts]; simp) (by simp [hostFrameBytes]), if_pos rfl,
      dropPartial_none hunts, placed s f short free]
  · obtain rfl : joinable s = had := by
      rcases joins with ⟨rfl, hunts⟩ | ⟨due, held, inTime⟩
      · exact joinable_none hunts
      · exact joinable_some held inTime
    refine ⟨fun more => ?_, fun ends free => ?_⟩
    · rw [parts s f part rest calm short whole some_, if_neg more]; rfl
    · rw [parts s f part rest calm short whole some_, if_pos ends, placed (dropPartial s) f short free]; rfl

/-- Settles O17: each discard, and the characters that go on. -/
theorem brokenHostFramesAreDiscarded : Obligations.BrokenHostFramesAreDiscarded := by
  intro s calm
  refine ⟨fun len hunts long => ?_, fun b hunts other => ?_, fun hunts => ?_,
    fun covered crc hunts len short two broken => ?_, fun hunts => ?_, fun p held => ⟨?_, fun b => ⟨fun late => ?_,
      fun inTime two goesOn => ?_, fun inTime one => ?_, fun sync covered crc inTime whole len short two => ⟨fun right free => ?_,
        fun broken => ?_⟩⟩⟩⟩
  · have first : hostChar s 0xA5 = holdPartial [0xA5] s := by rw [hostChar_hunts (joinable_none hunts), if_pos rfl]
    have joined := joinable_holdPartial [0xA5] s
    rw [exec_hostFrameReceived calm]
    show Host.Outcome.next (hostChar (hostChar s 0xA5) len) = _
    rw [first, hostChar_joins _ _ (by rw [joined]; simp), joined]; dsimp only
    rw [if_pos ⟨rfl, long⟩]
    exact congrArg Host.Outcome.next (dropPartial_none hunts)
  · rw [exec_hostFrameReceived calm]
    show Host.Outcome.next (hostChar s b) = _
    rw [hostChar_hunts (joinable_none hunts), if_neg other, dropPartial_none hunts]
  · rw [exec_hostFrameReceived calm]
    show Host.Outcome.next (hostChar s 0xA5) = _
    rw [hostChar_hunts (joinable_none hunts), if_pos rfl]; rfl
  · rw [exec_hostFrameReceived calm, hostChars_framed (rest := []) (by simp) (framed_of_covered len short two)
      (by rw [joinable_none hunts]; simp) rfl, if_pos rfl, dropPartial_none hunts, placeFrame_full]
    rcases broken with wrong | full
    · exact .inl (Bool.eq_false_iff.2 fun h => wrong ((crcMatches_iff len).1 h))
    · exact .inr (Nat.le_of_eq full.symm)
  · refine congrArg Host.Outcome.next ?_
    rw [hunts]
    exact takeEvent_calm calm rfl
  · refine congrArg Host.Outcome.next ?_
    rw [held]
    exact takeEvent_calm calm
      ((Walk.advanceTo (S := [.tick, .ben, .gsd]) (by decide) (by decide) (by decide) p.due s).handovers_eq (by decide))
  · have calm' : ({ s with hlc.partialFrame := none } : State).calm := calm
    rw [exec_hostFrameReceived calm, exec_hostFrameReceived calm']
    show Host.Outcome.next (hostChar s b) =
      Host.Outcome.next (hostChar { s with hlc.partialFrame := none } b)
    rw [hostChar_hunts (joinable_late held late), hostChar_hunts (joinable_none rfl)]
    rfl
  all_goals
    have joined := joinable_some held inTime
    rw [exec_hostFrameReceived calm]
    show Host.Outcome.next (hostChar s b) = _
  · have said := announced_append (rest := [b]) two
    rw [hostChar_joins _ _ (by rw [joined]; rintro h; simp [h] at two), joined]; dsimp only
    rw [if_neg (by simp; omega), said, if_neg (by simpa [announced] using fun _ => goesOn)]; rfl
  · obtain ⟨a, single⟩ := List.length_eq_one_iff.1 one
    have said : announced (p.chars ++ [b]) = b.toNat := by rw [single]; rfl
    rw [hostChar_joins _ _ (by rw [joined]; rintro h; simp [h] at one), joined]; dsimp only
    rw [said]
    by_cases long : 240 < b.toNat
    · rw [if_pos ⟨by simp [one], long⟩, if_pos long]; rfl
    · rw [if_neg fun h => long h.2, if_neg (by simp [one]; omega), if_neg long]; rfl
  all_goals
    have framed := framed_of_covered (sync := sync) len short two
    have started : joinable s = [] → b = 0xA5 := fun h => by
      rw [joined] at h; rw [h] at whole
      have lengths := congrArg List.length whole
      simp only [List.nil_append, List.length_cons, List.length_append, List.length_nil] at lengths
      omega
    rw [hostChar_framed (rest := []) framed (by rw [joined]; exact whole) started, if_pos rfl]
  · rw [placeFrame_free (s := dropPartial s) ((crcMatches_iff len).2 right) free, frameOf_covered len]; rfl
  · rw [placeFrame_full]
    · rfl
    · exact broken.imp (fun wrong => Bool.eq_false_iff.2 fun h => wrong ((crcMatches_iff len).1 h)) id

end Sys2Proof.Machine

/-!
SUPPORT. WRITE: the working copy, the order of the tests, and the rules of the lists (R35, R171, R173).
-/
namespace Sys2Proof.Machine

/-! ### The working copy (R35, R171) -/

/-- The thresholds that f_nom sets. -/
def thresholds : List ItemName := [.sys 13, .sys 14, .sys 15, .sys 17]

theorem applyItem_get_self (m : Image) (k : ItemName) (v : Int) : (applyItem m k v).get k = v := by
  by_cases nom : k = .sys Sys.fNom
  · subst nom; rw [applyItem_fNom_get]; rfl
  · rw [applyItem_of_ne nom, Image.get_put_self]

theorem applyItem_get_other (m : Image) {k q : ItemName} (v : Int) (other : q ≠ k)
    (unset : k ∈ thresholds → q ≠ .sys 3) : (applyItem m q v).get k = m.get k := by
  by_cases nom : q = .sys Sys.fNom
  · subst nom
    refine applyItem_fNom_get_other m v fun h => ?_
    rcases List.mem_cons.1 h with h | h
    · exact other h.symm
    · exact unset h rfl
  · rw [applyItem_of_ne nom, Image.get_put_ne _ _ other]

/-- The threshold and the defaults that f_nom gives it. -/
theorem applyItem_fNom_threshold (m : Image) (v : Int) {f : Fin 38} {at50 at60 : Int}
    (row : (f, at50, at60) ∈ [((13 : Fin 38), (47500 : Int), (57000 : Int)), (14, 48800, 58560), (15, 51500, 61800),
      (17, 49800, 59760)]) :
    (applyItem m (.sys 3) v).get (.sys f) = if v = 60000 then at60 else at50 := by
  rw [show (ItemName.sys 3) = .sys Sys.fNom from rfl, applyItem_fNom_get]
  simp only [List.mem_cons, Prod.mk.injEq, List.not_mem_nil, or_false] at row
  rcases row with ⟨rfl, rfl, rfl⟩ | ⟨rfl, rfl, rfl⟩ | ⟨rfl, rfl, rfl⟩ | ⟨rfl, rfl, rfl⟩ <;> rfl

theorem applyItems_append (m : Image) (pre post : List RawItem) :
    applyItems m (pre ++ post) = applyItems (applyItems m pre) post := List.foldl_append

theorem applyItems_cons (m : Image) (r : RawItem) (post : List RawItem) :
    applyItems m (r :: post) =
      applyItems (match r.name with | some k => applyItem m k r.value | none => m) post := rfl

theorem applyItems_cons_of_name {r : RawItem} {k : ItemName} (name : r.name = some k) (m : Image)
    (post : List RawItem) : applyItems m (r :: post) = applyItems (applyItem m k r.value) post := by
  rw [applyItems_cons, name]

/-- What no later item names or sets stays. -/
theorem applyItems_get_unnamed (m : Image) (items : List RawItem) {k : ItemName}
    (unnamed : ∀ q ∈ items, q.name ≠ some k) (unset : k ∈ thresholds → ∀ q ∈ items, q.name ≠ some (.sys 3)) :
    (applyItems m items).get k = m.get k := by
  induction items generalizing m with
  | nil => rfl
  | cons r rest ih =>
    have later := fun m => ih m (fun q hq => unnamed q (List.mem_cons_of_mem _ hq))
      (fun h q hq => unset h q (List.mem_cons_of_mem _ hq))
    cases name : r.name with
    | none => rw [applyItems_cons, name]; exact later m
    | some q =>
      rw [applyItems_cons_of_name name, later]
      exact applyItem_get_other m _ (fun e => unnamed r List.mem_cons_self (e ▸ name))
        (fun h e => unset h r List.mem_cons_self (e ▸ name))

theorem applyItems_get_last (m : Image) (pre post : List RawItem) {r : RawItem} {k : ItemName} (name : r.name = some k)
    (last : ∀ q ∈ post, q.name ≠ some k) (unset : k ∈ thresholds → ∀ q ∈ post, q.name ≠ some (.sys 3)) :
    (applyItems m (pre ++ r :: post)).get k = r.value := by
  rw [applyItems_append, applyItems_cons_of_name name, applyItems_get_unnamed _ _ last unset, applyItem_get_self]

theorem applyItems_get_threshold (m : Image) (pre post : List RawItem) {r : RawItem} {f : Fin 38} {at50 at60 : Int}
    (name : r.name = some (.sys 3))
    (row : (f, at50, at60) ∈ [((13 : Fin 38), (47500 : Int), (57000 : Int)), (14, 48800, 58560), (15, 51500, 61800),
      (17, 49800, 59760)])
    (last : ∀ q ∈ post, q.name ≠ some (.sys 3) ∧ q.name ≠ some (.sys f)) :
    (applyItems m (pre ++ r :: post)).get (.sys f) = if r.value = 60000 then at60 else at50 := by
  rw [applyItems_append, applyItems_cons_of_name name,
    applyItems_get_unnamed _ _ (fun q hq => (last q hq).2) fun _ q hq => (last q hq).1, applyItem_fNom_threshold _ _ row]

/-! ### The rules of a list (R173) -/

/-- The rules of a list, its length item being entry 0: the entries within the length are good and differ, the others
are 0. -/
theorem list_rules_iff {n : Nat} (entry : Fin (n + 1) → Int) (good : Int → Bool) :
    let entries := (List.finRange (n + 1)).tail.map entry
    (between 0 entries.length (entry 0) && (entries.take (entry 0).toNat).all good &&
        decide (entries.take (entry 0).toNat).Nodup && (entries.drop (entry 0).toNat).all fun v => v = 0) = true ↔
      0 ≤ entry 0 ∧ entry 0 ≤ n ∧ ∀ i : Fin (n + 1), 1 ≤ i.val →
        ((i.val : Int) ≤ entry 0 → good (entry i) = true ∧
          ∀ j : Fin (n + 1), 1 ≤ j.val → (j.val : Int) ≤ entry 0 → entry i = entry j → i = j) ∧
        (entry 0 < i.val → entry i = 0) := by
  intro entries
  have length : entries.length = n := by simp [entries]
  have at_ : ∀ k (h : k < entries.length), entries[k] = entry ⟨k + 1, by omega⟩ := fun k h => by
    simp [entries, List.getElem_tail]
  have item : ∀ (i : Fin (n + 1)) (_ : 1 ≤ i.val) (h : i.val - 1 < entries.length), entries[i.val - 1] = entry i :=
    fun i one h => (at_ _ h).trans (congrArg entry (Fin.ext (Nat.sub_add_cancel one)))
  simp only [Bool.and_eq_true, between, decide_eq_true_eq, List.all_eq_true, length]
  constructor
  · rintro ⟨⟨⟨⟨lo, hi⟩, used⟩, distinct⟩, rest⟩
    refine ⟨lo, hi, fun i one => ⟨fun within => ⟨?_, fun j one' within' same => ?_⟩, fun beyond => ?_⟩⟩
    · refine used _ (List.mem_take_iff_getElem.2 ⟨i.val - 1, by omega, ?_⟩)
      exact item i one _
    · have hi' : i.val - 1 < (entries.take (entry 0).toNat).length := by rw [List.length_take]; omega
      have hj' : j.val - 1 < (entries.take (entry 0).toNat).length := by rw [List.length_take]; omega
      have e : i.val - 1 = j.val - 1 := (List.getElem_inj (h₀ := hi') (h₁ := hj') distinct).1 (by
        rw [List.getElem_take, List.getElem_take, item i one, item j one', same])
      exact Fin.ext (by omega)
    · refine rest _ (List.mem_drop_iff_getElem.2 ⟨i.val - 1 - (entry 0).toNat, by omega, ?_⟩)
      rw [at_]; congr 2; omega
  · rintro ⟨lo, hi, all⟩
    refine ⟨⟨⟨⟨lo, hi⟩, fun v hv => ?_⟩, ?_⟩, fun v hv => ?_⟩
    · obtain ⟨k, hk, rfl⟩ := List.mem_take_iff_getElem.1 hv
      rw [at_]
      exact ((all _ (by simp)).1 (by simp; omega)).1
    · refine List.pairwise_iff_getElem.2 fun a b ha hb less same => ?_
      rw [List.length_take] at ha hb
      rw [List.getElem_take, List.getElem_take, at_, at_] at same
      have := ((all _ (by simp)).1 (by simp; omega)).2 _ (by simp) (by simp; omega) same
      simp at this; omega
    · obtain ⟨k, hk, rfl⟩ := List.mem_drop_iff_getElem.1 hv
      rw [at_]
      exact (all _ (by simp)).2 (by simp; omega)

theorem entryOk_shed (m : Image) {key : Fin 5} (shed : key.val < 4) (v : Int) :
    entryOk m key v = true ↔ ∃ f : Fin 16, v = f.val + 1 ∧ m.get (.feeder f 0) = 1 := by
  rw [entryOk, if_pos shed]
  constructor
  · intro h
    split at h
    · next small =>
      simp only [Bool.and_eq_true, decide_eq_true_eq] at h
      exact ⟨⟨v.toNat - 1, small⟩, by simp; omega, h.2⟩
    · exact absurd h Bool.false_ne_true
  · rintro ⟨f, rfl, installed⟩
    have index : ((f.val : Int) + 1).toNat - 1 = f.val := by omega
    have small : ((f.val : Int) + 1).toNat - 1 < 16 := by omega
    have feeder : (⟨((f.val : Int) + 1).toNat - 1, small⟩ : Fin 16) = f := Fin.ext index
    rw [dif_pos small, feeder, installed]
    exact Bool.and_eq_true_iff.2 ⟨decide_eq_true (by omega), rfl⟩

theorem entryOk_merit (m : Image) {key : Fin 5} (merit : ¬key.val < 4) (v : Int) :
    entryOk m key v = true ↔ 1 ≤ v ∧ v ≤ 6 := by
  rw [entryOk, if_neg merit]; simp [between]

theorem listOk_iff (m : Image) (key : Fin 5) : listOk m key = true ↔ listGood m key := by
  unfold listOk listItems listGood
  by_cases shed : key.val < 4
  · rw [dif_pos shed, dif_pos shed]; dsimp only
    refine (list_rules_iff (fun i => m.get (.shed ⟨key.val, shed⟩ i)) (entryOk m key)).trans ?_
    simp only [entryOk_shed m shed]; rfl
  · rw [dif_neg shed, dif_neg shed]; dsimp only
    refine (list_rules_iff (fun i => m.get (.merit i)) (entryOk m key)).trans ?_
    simp only [entryOk_merit m shed, and_assoc]; rfl

/-! ### The order of the tests (R171) -/

theorem barred_eq_false_iff (r : RawItem) : r.barred = false ↔ writable r := by
  unfold RawItem.barred writable
  cases r.name with
  | none => simp
  | some k => simp

theorem touches_iff (r : RawItem) (key : Fin 5) : r.touches key = true ↔ touchesList r key := by
  simp [RawItem.touches, touchesList, Option.bind_eq_some_iff]

/-- The first entry for which a test holds, by its place. -/
theorem findIdx?_append_cons {α : Type} {p : α → Bool} {pre post : List α} {r : α} (here : p r = true)
    (before : ∀ q ∈ pre, p q = false) : (pre ++ r :: post).findIdx? p = some pre.length := by
  have first : pre.findIdx? p = none := List.findIdx?_eq_none_iff.2 before
  rw [List.findIdx?_append, first, List.findIdx?_cons, here]; simp

section
variable (m : Image) {pre post : List RawItem} {r : RawItem}

theorem writeImage_unnamed (none_ : r.name = none) (before : ∀ q ∈ pre, q.name ≠ none) :
    writeImage m (pre ++ r :: post) = .error pre.length := by
  have first : (pre ++ r :: post).findIdx? (fun r => r.name.isNone) = some pre.length :=
    findIdx?_append_cons (by simp [none_]) fun q hq => Option.isNone_eq_false_iff.2 (Option.isSome_iff_ne_none.2 (before q hq))
  simp only [writeImage, first]

theorem named_findIdx? {items : List RawItem} (named : ∀ q ∈ items, q.name ≠ none) :
    items.findIdx? (fun r => r.name.isNone) = none :=
  List.findIdx?_eq_none_iff.2 fun q hq =>
    Option.isNone_eq_false_iff.2 (Option.isSome_iff_ne_none.2 (named q hq))

theorem writeImage_unwritable (named : ∀ q ∈ pre ++ r :: post, q.name ≠ none) (bad : ¬writable r)
    (before : ∀ q ∈ pre, writable q) : writeImage m (pre ++ r :: post) = .error pre.length := by
  have first : (pre ++ r :: post).findIdx? RawItem.barred = some pre.length :=
    findIdx?_append_cons (by rwa [← barred_eq_false_iff, Bool.not_eq_false] at bad)
      fun q hq => (barred_eq_false_iff q).2 (before q hq)
  simp only [writeImage, named_findIdx? named, first]

/-- Items that may all be written are judged by their lists alone. -/
theorem writeImage_of_writable {items : List RawItem} (good : ∀ q ∈ items, writable q) :
    writeImage m items =
      match (List.finRange 5).find? fun key =>
          items.any (fun r => r.touches key) && !listOk (applyItems m items) key with
      | some key => .error (lastTouch items key)
      | none => .ok (applyItems m items) := by
  have named : ∀ q ∈ items, q.name ≠ none := fun q hq => by
    obtain ⟨k, name, -⟩ := good q hq
    simp [name]
  have unbarred : items.findIdx? RawItem.barred = none :=
    List.findIdx?_eq_none_iff.2 fun q hq => (barred_eq_false_iff q).2 (good q hq)
  simp only [writeImage, named_findIdx? named, unbarred] <;> rfl

/-- The last item that touches a list, by its place. -/
theorem lastTouch_append_cons {key : Fin 5} (here : touchesList r key) (after : ∀ q ∈ post, ¬touchesList q key) :
    lastTouch (pre ++ r :: post) key = pre.length := by
  have none_ : ((post.zipIdx (pre.length + 1)).filter fun p => p.1.touches key) = [] :=
    List.filter_eq_nil_iff.2 fun p hp => by
      rw [touches_iff]; exact after _ (List.fst_mem_of_mem_zipIdx hp)
  unfold lastTouch
  rw [List.zipIdx_append, List.filter_append, List.zipIdx_cons, Nat.zero_add,
    List.filter_cons_of_pos (p := fun p : RawItem × Nat => p.1.touches key) ((touches_iff r key).2 here), none_]
  simp

theorem writeImage_broken_list {key : Fin 5} (good : ∀ q ∈ pre ++ r :: post, writable q) (here : touchesList r key)
    (after : ∀ q ∈ post, ¬touchesList q key) (broken : ¬listGood (applyItems m (pre ++ r :: post)) key)
    (before : ∀ key' < key, (∃ q ∈ pre ++ r :: post, touchesList q key') →
      listGood (applyItems m (pre ++ r :: post)) key') : writeImage m (pre ++ r :: post) = .error pre.length := by
  have found : ((List.finRange 5).find? fun key =>
      (pre ++ r :: post).any (fun r => r.touches key) && !listOk (applyItems m (pre ++ r :: post)) key) = some key := by
    have bad : listOk (applyItems m (pre ++ r :: post)) key = false :=
      Bool.eq_false_iff.2 fun h => broken ((listOk_iff _ key).1 h)
    have some_ : (pre ++ r :: post).any (fun r => r.touches key) = true :=
      List.any_eq_true.2 ⟨r, by simp, (touches_iff r key).2 here⟩
    refine List.find?_eq_some_iff_getElem.2 ⟨by simp [bad, some_], key.val, by simp, by simp, fun j hj => ?_⟩
    have less : (List.finRange 5)[j]'(by simp; omega) < key := by simpa [Fin.lt_def] using hj
    rw [Bool.not_eq_true', Bool.and_eq_false_iff, List.any_eq_false]
    by_cases named : ∃ q ∈ pre ++ r :: post, touchesList q ((List.finRange 5)[j]'(by simp; omega))
    · exact .inr (by rw [(listOk_iff _ _).2 (before _ less named)]; rfl)
    · exact .inl fun q hq h => named ⟨q, hq, (touches_iff _ _).1 h⟩
  rw [writeImage_of_writable m good, found]
  exact congrArg Except.error (lastTouch_append_cons here after)

theorem writeImage_good_lists {items : List RawItem} (good : ∀ q ∈ items, writable q)
    (lists : ∀ key, (∃ q ∈ items, touchesList q key) → listGood (applyItems m items) key) :
    writeImage m items = .ok (applyItems m items) := by
  have none_ : ((List.finRange 5).find? fun key =>
      items.any (fun r => r.touches key) && !listOk (applyItems m items) key) = none :=
    List.find?_eq_none.2 fun key _ h => by
      simp only [Bool.and_eq_true, List.any_eq_true, Bool.not_eq_true'] at h
      obtain ⟨⟨q, hq, touches⟩, bad⟩ := h
      have := (listOk_iff _ key).2 (lists key ⟨q, hq, (touches_iff q key).1 touches⟩)
      rw [bad] at this; exact Bool.false_ne_true this
  rw [writeImage_of_writable m good, none_]

end

/-- Settles O26: the working copy; the mode; the tests in their order; the acceptance. -/
theorem writeTakesAllOrNone : Obligations.WriteTakesAllOrNone := by
  refine ⟨fun m items => ⟨fun k unnamed unset => applyItems_get_unnamed m items unnamed unset,
    fun pre r post e => ⟨fun k name last unset => ?_, fun f at50 at60 name row last => ⟨fun v => ?_, fun v => ?_⟩⟩⟩,
    fun s tag body ht len => ⟨fun other => ?_, fun setup => ⟨fun pre r post e none_ before => ?_,
      fun named pre r post e bad before => ?_, fun good key pre r post e here after broken before => ?_,
      fun good lists => ?_⟩⟩⟩
  · rw [e]; exact applyItems_get_last m pre post name last unset
  · rw [e, applyItems_get_threshold m pre post name row last, if_neg (by rw [v]; decide)]
  · rw [e, applyItems_get_threshold m pre post name row last, if_pos v]
  all_goals have fits := (writeFits_iff body).2 len
  · refine request_answered (writeAct body) (t := s.taken) (st := .mode) ht fits (fun reply => ?_) rfl
    exact if_neg other
  · refine exec_write_error ht fits setup ?_
    rw [e]; exact writeImage_unnamed _ none_ before
  · refine exec_write_error ht fits setup ?_
    rw [e] at named ⊢; exact writeImage_unwritable _ named bad before
  · refine exec_write_error ht fits setup ?_
    rw [e] at good broken before ⊢; exact writeImage_broken_list _ good here after broken before
  · have ok := writeImage_good_lists s.sst.image good lists
    have act : writeAct body (answer 0x03 tag) s.taken =
        (takeWrite (rawItems body) (applyItems s.sst.image (rawItems body)) s.taken).replied 0x83 tag [0] := by
      rw [writeAct, if_pos (show s.taken.sst.mode = .setup from setup), show s.taken.sst = s.sst from rfl, ok]
      rfl
    refine ⟨_, exec_write_taken ht fits, ?_, ?_⟩
    · rw [act, cascade, Walk.sst_eq (Walk.drain _ _) (by decide) (by decide)]
      exact Walk.sst_eq (S := [.rsc, .ben, .ctx, .gsd, .fdc, .handovers]) (Walk.itemsWritten (by decide) (by decide)
        (by decide) (by decide) (by decide) (by decide) _ _ _) (by decide) (by decide)
    · rw [act]; rfl

end Sys2Proof.Machine

/-!
SUPPORT. The owners of written and tuned items (R22, R35, R44, R61, R66, R74, R76, R172, R174).
-/
namespace Sys2Proof.Machine

/-! ### The changed items of a WRITE (R172) -/

theorem changedItems_skip {old new : Image} {k : ItemName} {rest : List ItemName}
    (h : k ∈ rest ∨ old.get k = new.get k) : changedItems old new (k :: rest) = changedItems old new rest := if_pos h

theorem changedItems_take {old new : Image} {k : ItemName} {rest : List ItemName} (last : k ∉ rest)
    (changed : old.get k ≠ new.get k) : changedItems old new (k :: rest) = k :: changedItems old new rest :=
  if_neg (not_or.2 ⟨last, changed⟩)

theorem mem_changedItems (old new : Image) (l : List ItemName) (k : ItemName) :
    k ∈ changedItems old new l ↔ k ∈ l ∧ old.get k ≠ new.get k := by
  refine ⟨fun h => ⟨mem_of_mem_changedItems h, ?_⟩, fun h => mem_changedItems_of_ne h.1 h.2⟩
  induction l with
  | nil => exact absurd h List.not_mem_nil
  | cons a rest ih =>
    by_cases skipped : a ∈ rest ∨ old.get a = new.get a
    · exact ih (changedItems_skip skipped ▸ h)
    · obtain ⟨last, changed⟩ := not_or.1 skipped
      rw [changedItems_take last changed] at h
      rcases List.mem_cons.1 h with rfl | h
      · exact changed
      · exact ih h

theorem changedItems_nodup (old new : Image) (l : List ItemName) : (changedItems old new l).Nodup := by
  induction l with
  | nil => exact List.nodup_nil
  | cons a rest ih =>
    by_cases skipped : a ∈ rest ∨ old.get a = new.get a
    · rw [changedItems_skip skipped]; exact ih
    · obtain ⟨last, changed⟩ := not_or.1 skipped
      rw [changedItems_take last changed]
      exact List.nodup_cons.2 ⟨fun h => last (mem_of_mem_changedItems h), ih⟩

/-! ### Each owner -/

theorem itemPlant_eq_some (k : ItemName) (p : Fin 8) : itemPlant k = some p ↔ ∃ f, k = .plant p f := by
  cases k <;> simp [itemPlant]

theorem any_itemPlant (rest : List ItemName) (p : Fin 8) :
    (rest.any fun k => itemPlant k = some p) = true ↔ ∃ f, ItemName.plant p f ∈ rest := by
  simp only [List.any_eq_true, decide_eq_true_eq, itemPlant_eq_some]
  constructor
  · rintro ⟨k, hk, f, rfl⟩; exact ⟨f, hk⟩
  · rintro ⟨f, hf⟩; exact ⟨_, hf, f, rfl⟩

/-- A plant's row takes its items at the last of them (R44, log entry 17). -/
theorem itemWritten_plant (t s : State) {rest : List ItemName} (p : Fin 8) (f : Fin 3)
    (last : ∀ f', ItemName.plant p f' ∉ rest) :
    itemWritten t (.plant p f) rest s =
      modPlant p (fun r =>
        if t.sst.image.get (.plant p 0) ≠ s.sst.image.get (.plant p 0) ∧ s.plantInstalled p = false then
          ⟨true, none, r.revision + 1⟩
        else { r with revision := r.revision + 1 }) s := by
  have none_ : (rest.any fun k => itemPlant k = some p) = false :=
    Bool.eq_false_iff.2 fun h => by
      obtain ⟨f', hf⟩ := (any_itemPlant rest p).1 h
      exact last f' hf
  unfold itemWritten; dsimp only
  rw [none_, if_neg Bool.false_ne_true, plantWritten]
  simp only [bne_iff_ne, Bool.and_eq_true, Bool.not_eq_true']

/-- A latch follows a truth (R74). -/
theorem moveLatch_eq (c : Fin 24) (b : Bool) (s : State) :
    moveLatch c b s = if s.condRoute c = 0 then s
      else setLatch c (if b then (s.condRow c).latch.onTrue else (s.condRow c).latch.onFalse) s := rfl

/-- The row of a condition whose mode was written: EDGE to HOLD clears the flag (R61). -/
def modeRow (t s : State) (c : Fin 24) : State :=
  if t.condHold c = false ∧ s.condHold c = true then modCond c (fun r => { r with flag := false, raisedBy := none }) s
  else s

theorem modeRow_condRow (t s : State) (c : Fin 24) :
    (modeRow t s c).condRow c = if t.condHold c = false ∧ s.condHold c = true then
      { s.condRow c with flag := false, raisedBy := none } else s.condRow c := by
  unfold modeRow; split
  · rw [modCond_condRow_self]
  · rfl

theorem modeRow_condRoute (t s : State) (c : Fin 24) : (modeRow t s c).condRoute c = s.condRoute c := by
  unfold modeRow; split <;> rfl

theorem modeRow_latch (t s : State) (c : Fin 24) : ((modeRow t s c).condRow c).latch = (s.condRow c).latch := by
  rw [modeRow_condRow]; split <;> rfl

/-- A written mode (R61, R74, log entry 22). -/
theorem itemWritten_mode (t s : State) (rest : List ItemName) (c : Fin 24) :
    itemWritten t (.cond c 2) rest s =
      if (modeRow t s c).truth c = t.truth c ∨ s.condRoute c = 0 then modeRow t s c
      else setLatch c (if (modeRow t s c).truth c = true then (s.condRow c).latch.onTrue
        else (s.condRow c).latch.onFalse) (modeRow t s c) := by
  have row : (if !t.condHold c && s.condHold c then
      modCond c (fun r => { r with flag := false, raisedBy := none }) s else s) = modeRow t s c := by
    unfold modeRow; simp only [Bool.and_eq_true, Bool.not_eq_true']
  show modeWritten c (t.condHold c) (t.truth c) s = _
  unfold modeWritten; dsimp only
  rw [row, moveLatch_eq, modeRow_condRoute, modeRow_latch]
  by_cases same : (modeRow t s c).truth c = t.truth c
  · rw [if_pos same, if_pos (.inl same)]
  · rw [if_neg same]
    by_cases route : s.condRoute c = 0
    · rw [if_pos route, if_pos (.inr route)]
    · rw [if_neg route, if_neg (not_or.2 ⟨same, route⟩)]

/-- A moved latch changes nothing else of the row. -/
theorem itemWritten_mode_row (t s : State) (rest : List ItemName) (c : Fin 24) :
    ∃ l, (itemWritten t (.cond c 2) rest s).condRow c = { (modeRow t s c).condRow c with latch := l } := by
  rw [itemWritten_mode]; split
  · exact ⟨((modeRow t s c).condRow c).latch, rfl⟩
  · exact ⟨_, setLatch_condRow_self c _ _⟩

theorem itemWritten_mode_flag (t s : State) (rest : List ItemName) (c : Fin 24) :
    ((itemWritten t (.cond c 2) rest s).condRow c).flag =
      if t.condHold c = false ∧ s.condHold c = true then false else (s.condRow c).flag := by
  obtain ⟨l, row⟩ := itemWritten_mode_row t s rest c
  rw [row, modeRow_condRow]; split <;> rfl

theorem itemWritten_mode_last (t s : State) (rest : List ItemName) (c : Fin 24) :
    ((itemWritten t (.cond c 2) rest s).condRow c).last = (s.condRow c).last := by
  obtain ⟨l, row⟩ := itemWritten_mode_row t s rest c
  rw [row, modeRow_condRow]; split <;> rfl

theorem itemWritten_cond_other (t s : State) (rest : List ItemName) (c : Fin 24) {f : Fin 6} (notMode : f ≠ 2)
    (notRoute : f ≠ 5) : itemWritten t (.cond c f) rest s = s := by
  unfold itemWritten; dsimp only
  rw [if_neg fun h : f.val = 2 => notMode (Fin.ext h), if_neg fun h : f.val = 5 => notRoute (Fin.ext h)]

/-- Settles O28: the changed items as a list; then item by item what its owner does. -/
theorem writtenItemsReachTheirOwners : Obligations.WrittenItemsReachTheirOwners := by
  refine ⟨mem_changedItems, changedItems_nodup, fun old new k rest =>
    ⟨rfl, changedItems_skip, changedItems_take⟩, fun _ _ => rfl, fun _ _ _ _ => rfl, fun t s rest => ?_⟩
  have zero : ∀ {n : Nat} (f : Fin (n + 1)), f.val = 0 ↔ f = 0 := fun f =>
    ⟨fun h => Fin.ext h, fun h => h ▸ rfl⟩
  refine ⟨fun f => rfl, fun p f later => if_pos ((any_itemPlant rest p).2 later),
    fun p f last => itemWritten_plant t s p f last, fun g f => ?_, fun i f => ?_,
    fun c f notMode notRoute => itemWritten_cond_other t s rest c notMode notRoute, fun c edge hold => ?_, fun c same => ?_,
    fun c => itemWritten_mode_last t s rest c, fun c => itemWritten_mode t s rest c, fun c => rfl, fun _ _ => rfl,
    fun _ => rfl⟩
  · unfold itemWritten; simp only [zero]; rfl
  · unfold itemWritten; simp only [zero]
  · rw [itemWritten_mode_flag, if_pos ⟨edge, hold⟩]
  · rw [itemWritten_mode_flag, if_neg]
    rintro ⟨edge, hold⟩
    rcases same with h | h
    · rw [edge] at h; exact Bool.false_ne_true h
    · rw [hold] at h; exact Bool.false_ne_true h.symm

/-! ### TUNE (R174) -/

theorem tunable_iff (k : ItemName) : k.tunable = true ↔ match k with
    | .sys f => f.val ∈ [5, 8, 9, 10, 11, 12, 13, 14, 15, 16, 17, 19, 20, 21]
    | .cond c f => f = 4 ∨ f = 5 ∨ c ≠ 0 ∧ (f = 0 ∨ f = 1)
    | _ => False := by
  cases k with
  | sys f => revert f; decide
  | cond c f =>
    simp only [ItemName.tunable, Bool.or_eq_true, Bool.and_eq_true, decide_eq_true_eq, Fin.ext_iff, ne_eq]
    have : f.val < 2 ↔ f.val = 0 ∨ f.val = 1 := by omega
    rw [this, or_assoc]; rfl
  | gen => exact iff_of_false Bool.false_ne_true id
  | plant => exact iff_of_false Bool.false_ne_true id
  | feeder => exact iff_of_false Bool.false_ne_true id
  | shed => exact iff_of_false Bool.false_ne_true id
  | merit => exact iff_of_false Bool.false_ne_true id

/-- The state at the reply of an accepted TUNE. -/
def tuned (k : ItemName) (v : Int) (tag : Byte) (s : State) : State :=
  { s.taken with
    sst.image := s.sst.image.put k v
    sst.committed := some (checkOf (s.sst.image.put k v))
    sst.scan := some ⟨s.tick, 0, 0xFFFFFFFF⟩ }.replied 0x89 tag (0 :: bytes32 (checkOf (s.sst.image.put k v)))

section
variable {s : State} {tag t r f z b3 b2 b1 b0 : Byte}

/-- The item that a body of eight bytes carries. -/
def bodyItem (t r f z b3 b2 b1 b0 : Byte) : RawItem :=
  ⟨t.toNat, r.toNat, f.toNat, z.toNat, (word32 b3 b2 b1 b0).toInt⟩

theorem bodyItem_name : (bodyItem t r f z b3 b2 b1 b0).name =
    if z = 0 then itemOfCodes t.toNat r.toNat f.toNat else none := by
  have zero : z.toNat = 0 ↔ z = 0 := ⟨fun h => BitVec.eq_of_toNat_eq h, fun h => h ▸ rfl⟩
  simp only [bodyItem, RawItem.name, zero]

theorem tuneAct_none (none_ : (if z = 0 then itemOfCodes t.toNat r.toNat f.toNat else none) = none)
    (reply : Reply) (s : State) : tuneAct [t, r, f, z, b3, b2, b1, b0] reply s = reply .range [] s := by
  show (match (bodyItem t r f z b3 b2 b1 b0).name with
    | some k => tuneItem k (bodyItem t r f z b3 b2 b1 b0).value reply s
    | none => reply .range [] s) = _
  rw [bodyItem_name, none_]

theorem tuneAct_some {k : ItemName}
    (name : (if z = 0 then itemOfCodes t.toNat r.toNat f.toNat else none) = some k) (reply : Reply) (s : State) :
    tuneAct [t, r, f, z, b3, b2, b1, b0] reply s = tuneItem k (word32 b3 b2 b1 b0).toInt reply s := by
  show (match (bodyItem t r f z b3 b2 b1 b0).name with
    | some k => tuneItem k (bodyItem t r f z b3 b2 b1 b0).value reply s
    | none => reply .range [] s) = _
  rw [bodyItem_name, name]; rfl

theorem tuneItem_mode {k : ItemName} {v : Int} (notCheck : s.sst.mode ≠ .check) (notRun : s.sst.mode ≠ .run)
    (reply : Reply) : tuneItem k v reply s = reply .mode [] s := if_neg (by simp [notCheck, notRun])

/-- In CHECK or RUN the item decides. -/
theorem tuneItem_taken {k : ItemName} {v : Int} (mode : s.sst.mode = .check ∨ s.sst.mode = .run) (reply : Reply) :
    tuneItem k v reply s =
      if !k.tunable then reply .notTunable [] s
      else if !k.inRange v then reply .range [] s
      else itemTuned s k (reply .ok (bytes32 (checkOf (s.sst.image.put k v))) (takeTune k v s)) :=
  if_pos (by simpa using mode)

end

/-- What RSC does for a tuned item (R66, R76, R174). -/
theorem itemTuned_cond (t : State) (c : Fin 24) (f : Fin 6) (s : State) :
    itemTuned t (.cond c f) s =
      if f = 0 ∨ f = 1 then emit .examine s
      else if f = 5 ∧ t.condRoute c = 0 ∧ s.condRoute c ≠ 0 then (if s.truth c = true then setLatch c .active s else s)
      else if f = 5 ∧ t.condRoute c ≠ 0 ∧ s.condRoute c = 0 then setLatch c .idle s
      else s := by
  have low : f.val < 2 ↔ f = 0 ∨ f = 1 := by simp only [Fin.ext_iff]; show _ ↔ f.val = 0 ∨ f.val = 1; omega
  have five : f.val = 5 ↔ f = 5 := ⟨fun h => Fin.ext h, fun h => h ▸ rfl⟩
  unfold itemTuned routeChanged; simp only [low, five]
  split
  · rfl
  · by_cases route : f = 5
    · simp only [route, if_true, true_and]
    · simp only [route, if_false, false_and]

/-- An examination alone is handed over. -/
theorem emit_of_calm {m : Handover} {s : State} (idle : s.handovers = []) : emit m s = { s with handovers := [m] } := by
  rw [emit, idle]; rfl

theorem cascade_of_idle {s : State} (idle : s.handovers = []) : cascade s = s := drain_nil _ _ idle

/-- Settles O30: the tunable fields; then no such item, the mode, the item, the value, the acceptance. -/
theorem tuneTable : Obligations.TuneTable := by
  refine ⟨tunable_iff, fun s tag t r f z b3 b2 b1 b0 => ?_⟩
  intro body v name ht
  refine ⟨fun none_ => ?_, fun k some_ => ⟨fun notCheck notRun => ?_, fun mode => ⟨fun fixed => ?_, fun tunable outside => ?_,
    fun tunable inside => ?_⟩⟩⟩
  · exact request_answered (tuneAct body) (t := s.taken) (st := .range) ht rfl (fun reply => tuneAct_none none_ reply _) rfl
  · refine request_answered (tuneAct body) (t := s.taken) (st := .mode) ht rfl (fun reply => ?_) rfl
    exact (tuneAct_some some_ reply _).trans (tuneItem_mode (s := s.taken) notCheck notRun reply)
  · refine request_answered (tuneAct body) (t := s.taken) (st := .notTunable) ht rfl (fun reply => ?_) rfl
    rw [tuneAct_some some_, tuneItem_taken (s := s.taken) mode, fixed]; rfl
  · refine request_answered (tuneAct body) (t := s.taken) (st := .range) ht rfl (fun reply => ?_) rfl
    rw [tuneAct_some some_, tuneItem_taken (s := s.taken) mode, tunable, outside]; rfl
  · intro m u
    have act : tuneAct body (answer 0x09 tag) s.taken = itemTuned s.taken k u := by
      rw [tuneAct_some some_, tuneItem_taken (s := s.taken) mode, tunable, inside]; rfl
    have idle : u.handovers = [] := ht.1.2
    have taken : exec (.tune tag body) s = .next (cascade (itemTuned s.taken k u)) := by
      rw [← act]; exact congrArg Host.Outcome.next (takeRequest_taken ht)
    rw [taken]
    cases k with
    | cond c f =>
      dsimp only
      rw [itemTuned_cond]
      by_cases low : f = 0 ∨ f = 1
      · rw [if_pos low, if_pos low, emit_of_calm idle]
      · rw [if_neg low, if_neg low]
        refine congrArg Host.Outcome.next (cascade_of_idle ?_)
        repeat' split
        all_goals simp only [setLatch_handovers, idle]
    | _ => exact congrArg Host.Outcome.next (cascade_of_idle idle)

end Sys2Proof.Machine

/-!
SUPPORT. RSC: AUTO, FORCE and CLEAR; what setting and clearing a flag, a presented value, a raise and a completion do to
the rows; acceptance (R57 to R74).
-/
namespace Sys2Proof.Machine

/-- A walk, register by register: what is not written is as it was, the notices aside. -/
theorem Walk.eq {S : List Part} {s t : State} (w : Walk S s t) : t = { s with
    tick := if .tick ∈ S then t.tick else s.tick
    srx := if .srx ∈ S then t.srx else s.srx
    ben := if .ben ∈ S then t.ben else s.ben
    ctx := if .ctx ∈ S then t.ctx else s.ctx
    rsc := if .rsc ∈ S then t.rsc else s.rsc
    chains := if .chains ∈ S then t.chains else s.chains
    gsd := if .gsd ∈ S then t.gsd else s.gsd
    fdc := if .fdc ∈ S then t.fdc else s.fdc
    bss := if .bss ∈ S then t.bss else s.bss
    sst := if .store ∈ S ∨ .image ∈ S then t.sst else s.sst
    hlc := if .link ∈ S then t.hlc else { s.hlc with notices := t.hlc.notices, lost := t.hlc.lost }
    handovers := if .handovers ∈ S then t.handovers else s.handovers } := by
  have part : ∀ {α : Type} {x y : α} (p : Part), (p ∉ S → x = y) → x = if p ∈ S then x else y := fun p h => by
    split
    · rfl
    · next out => exact h out
  have sst : t.sst = if Part.store ∈ S ∨ Part.image ∈ S then t.sst else s.sst := by
    split
    · rfl
    · next out => exact w.sst_eq (fun h => out (.inl h)) fun h => out (.inr h)
  have hlc : t.hlc = if Part.link ∈ S then t.hlc else { s.hlc with notices := t.hlc.notices, lost := t.hlc.lost } :=
    part .link fun out => by
      have partialFrame := w.partialFrame_eq out
      have slots := w.slots_eq out
      have reply := w.reply_eq out
      have sequence := w.sequence_eq out
      have line := w.line_eq out
      show t.hlc = ⟨s.hlc.partialFrame, s.hlc.slots, s.hlc.reply, t.hlc.notices, t.hlc.lost, s.hlc.sequence, s.hlc.line⟩
      rw [← partialFrame, ← slots, ← reply, ← sequence, ← line]
  have resetLow := w.resetLow_eq
  have lineRate := w.lineRate_eq
  have pending := w.pending_eq
  rw [← resetLow, ← lineRate, ← pending, ← part .tick w.tick_eq, ← part .srx w.srx_eq, ← part .ben w.ben_eq,
    ← part .ctx w.ctx_eq, ← part .rsc w.rsc_eq, ← part .chains w.chains_eq, ← part .gsd w.gsd_eq,
    ← part .fdc w.fdc_eq, ← part .bss w.bss_eq, ← part .handovers w.handovers_eq, ← sst, ← hlc]

/-- What RSC alone writes. -/
theorem Walk.eq_rsc {s t : State} (w : Walk [.rsc] s t) :
    t = { s with rsc := t.rsc, hlc.notices := t.hlc.notices, hlc.lost := t.hlc.lost } := w.eq

/-! ### Flags (R58 to R64, R74) -/

/-- A row changes, its latch follows the condition's truth (R74). -/
theorem withTruth_modCond (c : Fin 24) (f : CondRow → CondRow) (same : ∀ r, (f r).latch = r.latch) (s : State) :
    withTruth c (modCond c f) s =
      if (modCond c f s).truth c = s.truth c ∨ s.condRoute c = 0 then modCond c f s
      else setLatch c (if (modCond c f s).truth c = true then (s.condRow c).latch.onTrue
        else (s.condRow c).latch.onFalse) (modCond c f s) := by
  unfold withTruth; dsimp only
  rw [moveLatch_eq, modCond_condRow_self, same]
  by_cases truth : (modCond c f s).truth c = s.truth c
  · rw [if_pos truth, if_pos (.inl truth)]
  · rw [if_neg truth]
    by_cases route : s.condRoute c = 0
    · rw [if_pos (show (modCond c f s).condRoute c = 0 from route), if_pos (.inr route)]
    · rw [if_neg (show (modCond c f s).condRoute c ≠ 0 from route), if_neg (not_or.2 ⟨truth, route⟩)]

theorem setLatch_condHold (c d : Fin 24) (l : Latch) (s : State) : (setLatch c l s).condHold d = s.condHold d := by
  have image := (Walk.setLatch (S := [.rsc]) (by decide) c l s).image_eq (by decide)
  unfold State.condHold State.setting; rw [image]

theorem setLatch_truth (c d : Fin 24) (l : Latch) (s : State) : (setLatch c l s).truth d = s.truth d := by
  unfold State.truth
  rw [setLatch_condHold]
  by_cases e : c = d
  · subst e; rw [setLatch_condRow_self]
  · rw [setLatch_condRow_ne l s e]

theorem withTruth_modCond_truth (c : Fin 24) (f : CondRow → CondRow) (same : ∀ r, (f r).latch = r.latch) (s : State) :
    (withTruth c (modCond c f) s).truth c = (modCond c f s).truth c := by
  rw [withTruth_modCond c f same]; split
  · rfl
  · rw [setLatch_truth]

/-- The row and its latch after the change. -/
theorem withTruth_modCond_row (c : Fin 24) (f : CondRow → CondRow) (same : ∀ r, (f r).latch = r.latch) (s : State) :
    let t := withTruth c (modCond c f) s
    t.condRow c = { f (s.condRow c) with
      latch := if t.truth c = s.truth c ∨ s.condRoute c = 0 then (s.condRow c).latch
        else if t.truth c = true then (s.condRow c).latch.onTrue else (s.condRow c).latch.onFalse } := by
  intro t
  rw [withTruth_modCond_truth c f same]
  show (withTruth c (modCond c f) s).condRow c = _
  rw [withTruth_modCond c f same]
  split
  · rw [modCond_condRow_self, ← same]
  · rw [setLatch_condRow_self, modCond_condRow_self]

theorem withTruth_modCond_other (c : Fin 24) (f : CondRow → CondRow) (same : ∀ r, (f r).latch = r.latch) (s : State)
    {d : Fin 24} (other : d ≠ c) : (withTruth c (modCond c f) s).condRow d = s.condRow d := by
  rw [withTruth_modCond c f same]; split
  · rw [modCond_condRow, if_neg (Ne.symm other)]
  · rw [setLatch_condRow_ne _ _ (Ne.symm other), modCond_condRow, if_neg (Ne.symm other)]

/-- A change of latch leaves all of RSC but its rows. -/
theorem setLatch_rsc (c : Fin 24) (l : Latch) (s : State) :
    (setLatch c l s).rsc = { s.rsc with rows := (setLatch c l s).rsc.rows } := by
  by_cases h : (s.condRow c).latch = l
  · rw [setLatch_of_eq h]
  · rw [setLatch_of_ne h, notify_rsc]; rfl

theorem withTruth_modCond_rsc (c : Fin 24) (f : CondRow → CondRow) (same : ∀ r, (f r).latch = r.latch) (s : State) :
    (withTruth c (modCond c f) s).rsc = { s.rsc with rows := (withTruth c (modCond c f) s).rsc.rows } := by
  rw [withTruth_modCond c f same]; split
  · rfl
  · rw [setLatch_rsc]; rfl

/-- A changed row, with its latch, is all that RSC writes. -/
theorem withTruth_modCond_eq (c : Fin 24) (f : CondRow → CondRow) (same : ∀ r, (f r).latch = r.latch) (s : State) :
    let t := withTruth c (modCond c f) s
    t = { s with rsc.rows := t.rsc.rows, hlc.notices := t.hlc.notices, hlc.lost := t.hlc.lost } := by
  intro t
  have all : t = { s with rsc := t.rsc, hlc.notices := t.hlc.notices, hlc.lost := t.hlc.lost } :=
    (Walk.withTruth (S := [.rsc]) (by decide) c _ (Walk.modCond (by decide) c f) s).eq_rsc
  have rows : t.rsc = { s.rsc with rows := t.rsc.rows } := withTruth_modCond_rsc c f same s
  rw [rows] at all
  exact all

/-! ### AUTO, FORCE and CLEAR (R62, R63, R65) -/

/-- A request whose act hands over is followed by its cascade. -/
theorem request_cascade {kind tag : Byte} {body : List Byte} {fits : Bool} (act : Reply → State → State) {s u : State}
    (ht : s.takes kind tag body) (fit : fits = true) (acts : act (answer kind tag) s.taken = u) :
    (.next (takeRequest kind tag body fits act s) : Answer) = .next (cascade u) := by
  rw [fit, takeRequest_taken ht, acts]

theorem param_cons (b : Byte) (rest : List Byte) : param (b :: rest) 0 = b.toNat := rfl

theorem exec_auto {s : State} {tag b : Byte} (ht : s.takes 0x0A tag [b]) :
    exec (.auto tag [b]) s = .next (
      if b = 0 then { s.taken with rsc.auto := false }.replied 0x8A tag [0]
      else if b = 1 then
        (if s.rsc.auto = true then s.taken.replied 0x8A tag [0]
          else cascade (examine ({ s.taken with rsc.auto := true }.replied 0x8A tag [0])))
      else s.taken.replied 0x8A tag [4]) := by
  by_cases zero : b = 0
  · subst zero; rw [if_pos rfl]
    exact request_answered (autoAct [0]) (t := { s.taken with rsc.auto := false }) ht rfl (fun _ => rfl) rfl
  rw [if_neg zero]
  by_cases one : b = 1
  · subst one; rw [if_pos rfl]
    by_cases on : s.rsc.auto = true
    · rw [if_pos on]
      refine request_answered (autoAct [1]) (t := s.taken) (st := .ok) ht rfl (fun reply => ?_) rfl
      have same : ({ s.taken with rsc.auto := true } : State) = s.taken := by rw [← on]; rfl
      exact (if_pos on).trans (congrArg _ same)
    · rw [if_neg on]
      exact request_cascade (autoAct [1]) ht rfl (if_neg on)
  rw [if_neg one]
  refine request_answered (autoAct [b]) (t := s.taken) (st := .range) ht rfl (fun reply => ?_) rfl
  have notZero : b.toNat ≠ 0 := fun h => zero (BitVec.eq_of_toNat_eq h)
  have notOne : b.toNat ≠ 1 := fun h => one (BitVec.eq_of_toNat_eq h)
  unfold autoAct; rw [param_cons]
  split
  · next h => exact absurd h notZero
  · next h => exact absurd h notOne
  · rfl

theorem forceAct_none {b : Byte} (bad : b = 0 ∨ 23 < b.toNat) (reply : Reply) (s : State) :
    forceAct [b] reply s = reply .range [] s := by
  unfold forceAct; rw [param_cons]
  rcases bad with rfl | above
  · rfl
  · rw [numberRow_of_le above]

theorem forceAct_condition {b : Byte} {c : Fin 24} (h : b.toNat = c.val) (notC0 : c ≠ 0) (reply : Reply) (s : State) :
    forceAct [b] reply s =
      if (s.condRow c).holdOff.isSome then reply .state [] s else examine (reply .ok [] (setFlag c none s)) := by
  unfold forceAct; rw [param_cons, h, numberRow_val]; dsimp only; rw [if_neg notC0]

theorem clearAct_condition {b : Byte} {c : Fin 24} (h : b.toNat = c.val) (reply : Reply) (s : State) :
    clearAct [b] reply s = reply .ok [] (clearFlag c s) := by
  unfold clearAct; rw [param_cons, h, numberRow_val]

theorem clearAct_none {b : Byte} (above : 23 < b.toNat) (reply : Reply) (s : State) :
    clearAct [b] reply s = reply .range [] s := by
  unfold clearAct; rw [param_cons, numberRow_of_le above]

/-- A flag set: the row, its latch, and the rest as it was. -/
theorem setFlag_row (c : Fin 24) (subject : Option Nat) (s : State) :
    let t := setFlag c subject s
    t.condRow c = { s.condRow c with
      flag := true
      raisedBy := if (s.condRow c).flag then (s.condRow c).raisedBy else subject
      latch := if t.truth c = s.truth c ∨ s.condRoute c = 0 then (s.condRow c).latch
        else if t.truth c = true then (s.condRow c).latch.onTrue else (s.condRow c).latch.onFalse } :=
  withTruth_modCond_row c (fun r => { r with flag := true, raisedBy := if r.flag then r.raisedBy else subject })
    (fun _ => rfl) s

theorem clearFlag_row (c : Fin 24) (s : State) :
    let t := clearFlag c s
    t.condRow c = { s.condRow c with
      flag := false
      raisedBy := none
      latch := if t.truth c = s.truth c ∨ s.condRoute c = 0 then (s.condRow c).latch
        else if t.truth c = true then (s.condRow c).latch.onTrue else (s.condRow c).latch.onFalse } :=
  withTruth_modCond_row c (fun r => { r with flag := false, raisedBy := none }) (fun _ => rfl) s

theorem clearFlag_other (c : Fin 24) (s : State) {d : Fin 24} (other : d ≠ c) :
    (clearFlag c s).condRow d = s.condRow d :=
  withTruth_modCond_other c (fun r => { r with flag := false, raisedBy := none }) (fun _ => rfl) s other

theorem setFlag_other (c : Fin 24) (subject : Option Nat) (s : State) {d : Fin 24} (other : d ≠ c) :
    (setFlag c subject s).condRow d = s.condRow d :=
  withTruth_modCond_other c (fun r => { r with flag := true, raisedBy := if r.flag then r.raisedBy else subject })
    (fun _ => rfl) s other

theorem setFlag_eq (c : Fin 24) (subject : Option Nat) (s : State) :
    let t := setFlag c subject s
    t = { s with rsc.rows := t.rsc.rows, hlc.notices := t.hlc.notices, hlc.lost := t.hlc.lost } :=
  withTruth_modCond_eq c (fun r => { r with flag := true, raisedBy := if r.flag then r.raisedBy else subject })
    (fun _ => rfl) s

theorem clearFlag_eq (c : Fin 24) (s : State) :
    let t := clearFlag c s
    t = { s with rsc.rows := t.rsc.rows, hlc.notices := t.hlc.notices, hlc.lost := t.hlc.lost } :=
  withTruth_modCond_eq c (fun r => { r with flag := false, raisedBy := none }) (fun _ => rfl) s

/-- Settles O35: AUTO; FORCE of no condition, in hold-off and free; CLEAR; then the two row changes. -/
theorem autoForceAndClear : Obligations.AutoForceAndClear := by
  refine ⟨fun s tag b ht => exec_auto ht, fun s tag b ht => ⟨fun bad => ?_, fun c h notC0 => ⟨fun runs => ?_, fun idle => ?_⟩⟩,
    fun s tag b ht => ⟨fun above => ?_, fun c h => ?_⟩, fun s c subject t ht => ?_⟩
  · exact request_answered (forceAct [b]) (t := s.taken) (st := .range) ht rfl (fun reply => forceAct_none bad reply _) rfl
  · refine request_answered (forceAct [b]) (t := s.taken) (st := .state) ht rfl (fun reply => ?_) rfl
    exact (forceAct_condition h notC0 reply _).trans (if_pos (Option.isSome_iff_ne_none.2 runs))
  · refine request_cascade (forceAct [b]) ht rfl ((forceAct_condition h notC0 _ _).trans (if_neg ?_))
    exact fun runs => Option.isSome_iff_ne_none.1 runs idle
  · exact request_answered (clearAct [b]) (t := s.taken) (st := .range) ht rfl (fun reply => clearAct_none above reply _) rfl
  · exact request_answered (clearAct [b]) (st := .ok) ht rfl (fun reply => clearAct_condition h reply _)
      ((Walk.clearFlag (S := [.rsc]) (by decide) c s.taken).handovers_eq (by decide))
  · rcases ht with rfl | rfl
    · have row := setFlag_row c subject s
      refine ⟨fun _ => ?_, fun same => ?_, ?_, ?_, ?_, fun d other => ?_, ?_⟩
      · rw [row]
      · rw [same, clearFlag_row]
      · rw [row]
      · rw [row]
      · rw [row]
      · exact setFlag_other c subject s other
      · exact setFlag_eq c subject s
    · have row := clearFlag_row c s
      refine ⟨fun same => ?_, fun _ => ?_, ?_, ?_, ?_, fun d other => clearFlag_other c s other, ?_⟩
      · rw [same, setFlag_row]
      · rw [row]
      · rw [row]
      · rw [row]
      · rw [row]
      · exact clearFlag_eq c s

end Sys2Proof.Machine

/-!
SUPPORT. RSC: the end of a hold-off, a completion, presented values and raises, and acceptance (R57 to R72).
-/
namespace Sys2Proof.Machine

/-! ### Actions on every row -/

/-- When each index acts on its own row alone, in a context that all of them keep, each row is acted on once. -/
theorem forAll_rows {n : Nat} {α : Type} (f : Fin n → State → State) (row : State → Fin n → α) (ctx : State → Prop)
    (g : Fin n → α → α) (keep : ∀ i t, ctx t → ctx (f i t)) (self : ∀ i t, ctx t → row (f i t) i = g i (row t i))
    (other : ∀ i j t, i ≠ j → row (f i t) j = row t j) {s : State} (here : ctx s) (i : Fin n) :
    row (forAll n f s) i = g i (row s i) := by
  have key : ∀ (l : List (Fin n)) (s : State), ctx s → l.Nodup →
      row (l.foldl (fun s i => f i s) s) i = if i ∈ l then g i (row s i) else row s i := by
    intro l
    induction l with
    | nil => exact fun s _ _ => rfl
    | cons a l ih =>
      intro s here nodup
      obtain ⟨fresh, nodup⟩ := List.nodup_cons.1 nodup
      rw [List.foldl_cons, ih _ (keep a s here) nodup]
      by_cases e : a = i
      · subst e
        rw [if_neg fresh, if_pos List.mem_cons_self, self a s here]
      · simp [other _ _ _ e, Ne.symm e]
  rw [forAll, key _ s here (List.nodup_finRange n), if_pos (List.mem_finRange i)]

/-! ### Hold-offs (R60) -/

/-- What no time changes but the clock and what the blocks count of it. -/
theorem advanceTo_walk (due : Tick) (s : State) : Walk [.tick, .ben, .gsd] s (advanceTo due s) :=
  Walk.advanceTo (by decide) (by decide) (by decide) due s

theorem condRow_advanceTo (due : Tick) (s : State) (c : Fin 24) : (advanceTo due s).condRow c = s.condRow c := by
  simp only [State.condRow, (advanceTo_walk due s).rsc_eq (by decide)]

theorem exec_holdOffExpiry_idle {s : State} {c : Fin 24} (calm : s.calm) (idle : (s.condRow c).holdOff = none) :
    exec (.holdOffExpiry c) s = .next s := by
  have none_ : expire (s.condRow c).holdOff (holdOffEnded c) s = s := by rw [idle]; rfl
  exact congrArg Host.Outcome.next ((takeEvent_calm calm (by rw [none_])).trans none_)

theorem exec_holdOffExpiry {s : State} {c : Fin 24} {due : Tick} (calm : s.calm)
    (runs : (s.condRow c).holdOff = some due) :
    exec (.holdOffExpiry c) s = .next (cascade (
      if (s.condRow c).flag then examine (modCond c (fun r => { r with holdOff := none }) (advanceTo due s))
      else modCond c (fun r => { r with holdOff := none }) (advanceTo due s))) := by
  have ended : expire (s.condRow c).holdOff (holdOffEnded c) s = holdOffEnded c (advanceTo due s) := by rw [runs]; rfl
  refine congrArg Host.Outcome.next ((takeEvent_high _ s calm.1).trans ?_)
  rw [ended, holdOffEnded, condRow_advanceTo]; rfl

/-! ### Completion (R71, R72) -/

theorem entrySlot_none {s : State} {c : Fin 24} (free : ∀ l e, s.rsc.active.get l = some e → e.cond ≠ c) :
    s.entrySlot c = none := by
  refine List.find?_eq_none.2 fun l _ h => ?_
  cases e : s.rsc.active.get l with
  | none => simp [e] at h
  | some entry => exact free l entry e (by simpa [e] using h)

theorem entrySlot_some {s : State} {c : Fin 24} {l : Fin 7} {e : ActiveEntry} (here : s.rsc.active.get l = some e)
    (own : e.cond = c) (only : ∀ l' e', s.rsc.active.get l' = some e' → e'.cond = c → l' = l) :
    s.entrySlot c = some l := by
  have found : (s.entrySlot c).isSome := List.find?_isSome.2 ⟨l, List.mem_finRange l, by simp [here, own]⟩
  obtain ⟨l', h⟩ := Option.isSome_iff_exists.1 found
  have holds := List.find?_some h
  cases e' : s.rsc.active.get l' with
  | none => simp [e'] at holds
  | some entry =>
    rw [h, only l' entry e' (by simpa [e'] using holds)]

/-- The truth that a row gives, the mode as the image holds it. -/
def State.rowTruth (s : State) (c : Fin 24) (r : CondRow) : Bool :=
  if isPresented c && s.condHold c then r.last else r.flag

theorem truth_eq_rowTruth (s : State) (c : Fin 24) : s.truth c = s.rowTruth c (s.condRow c) := rfl

theorem rowTruth_congr {s t : State} (image : t.sst.image = s.sst.image) (c : Fin 24) (r : CondRow) :
    t.rowTruth c r = s.rowTruth c r := by
  unfold State.rowTruth State.condHold State.setting; rw [image]

/-- A row whose flag is cleared: the latch falls with a truth that the flag gave (R74). -/
def State.rowCleared (s : State) (c : Fin 24) (r : CondRow) : CondRow :=
  { r with
    flag := false
    raisedBy := none
    latch := if s.rowTruth c { r with flag := false } = s.rowTruth c r ∨ s.condRoute c = 0 then r.latch
      else r.latch.onFalse }

theorem condRoute_congr {s t : State} (image : t.sst.image = s.sst.image) (c : Fin 24) :
    t.condRoute c = s.condRoute c := by
  unfold State.condRoute State.setting; rw [image]

theorem rowCleared_congr {s t : State} (image : t.sst.image = s.sst.image) (c : Fin 24) (r : CondRow) :
    t.rowCleared c r = s.rowCleared c r := by
  simp only [State.rowCleared, rowTruth_congr image, condRoute_congr image]

theorem clearFlag_image (c : Fin 24) (s : State) : (clearFlag c s).sst.image = s.sst.image :=
  (Walk.clearFlag (S := [.rsc]) (by decide) c s).image_eq (by decide)

/-- What clearing a flag does to the row; a truth that changes is then false. -/
theorem clearFlag_rowCleared (c : Fin 24) (s : State) : (clearFlag c s).condRow c = s.rowCleared c (s.condRow c) := by
  have truth : (clearFlag c s).truth c = s.rowTruth c { s.condRow c with flag := false } := by
    rw [truth_eq_rowTruth, rowTruth_congr (clearFlag_image c s), clearFlag_row]; rfl
  rw [clearFlag_row, truth, truth_eq_rowTruth s c]
  unfold State.rowCleared
  by_cases same : s.rowTruth c { s.condRow c with flag := false } = s.rowTruth c (s.condRow c) ∨ s.condRoute c = 0
  · rw [if_pos same, if_pos same]
  · have low : s.rowTruth c { s.condRow c with flag := false } = false := by
      refine Bool.eq_false_iff.2 fun h => same (.inl ?_)
      unfold State.rowTruth at h ⊢
      split at h
      · next hold => rw [if_pos hold, if_pos hold]
      · exact absurd h Bool.false_ne_true
    rw [if_neg same, if_neg same, low, if_neg Bool.false_ne_true]

/-- One condition of the flags that C0 DONE clears (R72). -/
def clearBelow14 (c : Fin 24) (s : State) : State := if 1 ≤ c.val ∧ c.val ≤ 13 then clearFlag c s else s

theorem clearBlackStartFlags_eq (s : State) : clearBlackStartFlags s = forAll 24 clearBelow14 s := rfl

theorem clearBlackStartFlags_row (s : State) (d : Fin 24) :
    (clearBlackStartFlags s).condRow d =
      if 1 ≤ d.val ∧ d.val ≤ 13 then s.rowCleared d (s.condRow d) else s.condRow d := by
  refine forAll_rows clearBelow14 State.condRow (fun t => t.sst.image = s.sst.image)
    (fun d r => if 1 ≤ d.val ∧ d.val ≤ 13 then s.rowCleared d r else r) (fun i t image => ?_) (fun i t image => ?_)
    (fun i j t e => ?_) rfl d
  · unfold clearBelow14; split
    · exact (clearFlag_image i t).trans image
    · exact image
  · unfold clearBelow14; split
    · rw [clearFlag_rowCleared, rowCleared_congr image]
    · rfl
  · unfold clearBelow14; split
    · exact clearFlag_other i t (Ne.symm e)
    · rfl

/-- What RSC holds beside its rows. -/
def Rsc.besideRows (r : Rsc) : Latch × Tab 7 (Option ActiveEntry) × Bool × Bool :=
  (r.faultLatch, r.active, r.auto, r.suppress)

theorem clearFlag_besideRows (c : Fin 24) (s : State) : (clearFlag c s).rsc.besideRows = s.rsc.besideRows := by
  rw [clearFlag_eq c s]; rfl

theorem clearBlackStartFlags_besideRows (s : State) :
    (clearBlackStartFlags s).rsc.besideRows = s.rsc.besideRows :=
  forAll_keeps clearBelow14 (·.rsc.besideRows)
    (fun c t => by
      unfold clearBelow14
      split
      · exact clearFlag_besideRows c t
      · exact rfl) s

/-- The state at the COMPLETED notice: the entry gone, the hold-off begun, the cases of C0 (R64, R71, R72). -/
def completed (c : Fin 24) (o : StepOutcome) (l : Fin 7) (e : ActiveEntry) (s : State) : State :=
  let gone := { s with rsc.active := s.rsc.active.put l none }
  let due := if s.condHoldOff c = 0 then none else some (s.dueIn (s.condHoldOff c))
  let held := modCond c (fun r => { r with holdOff := due }) gone
  let cleared := if c = 0 ∧ o = .done then clearBlackStartFlags held else held
  if c = 0 ∧ (o = .failed ∨ e.kind = .notice) then { cleared with rsc.suppress := true } else cleared

theorem finishEntry_eq (c : Fin 24) (o : StepOutcome) (l : Fin 7) (e : ActiveEntry) (s : State) :
    finishEntry c o l e { s with rsc.active := s.rsc.active.put l none } =
      examine (notify .completed c.val
        [sField (l.val + 1), sField e.kind.code, sField o.code, (completed c o l e s).tick - e.since]
        (completed c o l e s)) := rfl

theorem completed_walk (c : Fin 24) (o : StepOutcome) (l : Fin 7) (e : ActiveEntry) (s : State) :
    Walk [.rsc] s (completed c o l e s) := by
  have rscS : .rsc ∈ [Part.rsc] := by decide
  have held := fun due => (Walk.rsc rscS s { s.rsc with active := s.rsc.active.put l none }).trans
    (Walk.modCond rscS c (fun r => { r with holdOff := due }) _)
  have cleared := fun due => Walk.ite (p := c = 0 ∧ o = .done)
    (fun _ => (held due).trans (Walk.clearBlackStartFlags rscS _)) (fun _ => held due)
  unfold completed; dsimp only
  exact Walk.ite (fun _ => (cleared _).trans (Walk.rsc rscS _ _)) (fun _ => cleared _)

theorem completed_row (c : Fin 24) (o : StepOutcome) (l : Fin 7) (e : ActiveEntry) (s : State) (d : Fin 24) :
    (completed c o l e s).condRow d =
      let r := { s.condRow d with holdOff := if d = c then
        (if s.condHoldOff c = 0 then none else some (s.dueIn (s.condHoldOff c))) else (s.condRow d).holdOff }
      if (c = 0 ∧ o = .done) ∧ 1 ≤ d.val ∧ d.val ≤ 13 then s.rowCleared d r else r := by
  have suppressed : ∀ (p : Prop) [Decidable p] (x : State),
      (if p then { x with rsc.suppress := true } else x).condRow d = x.condRow d := fun p _ x => by split <;> rfl
  have held : ∀ due, (modCond c (fun r => { r with holdOff := due })
      { s with rsc.active := s.rsc.active.put l none }).condRow d =
        { s.condRow d with holdOff := if d = c then due else (s.condRow d).holdOff } := fun due => by
    rw [modCond_condRow]
    by_cases e : c = d
    · subst e; rw [if_pos rfl, if_pos rfl]; rfl
    · rw [if_neg e, if_neg (Ne.symm e)]; rfl
  unfold completed; dsimp only
  rw [suppressed]
  by_cases done : c = 0 ∧ o = .done
  · rw [if_pos done, clearBlackStartFlags_row, held]
    simp only [done, and_self, true_and]
    rfl
  · rw [if_neg done, held, if_neg (c := (c = 0 ∧ o = .done) ∧ 1 ≤ d.val ∧ d.val ≤ 13) fun h => done h.1]

/-- The truth of a row is not read from its hold-off, and the latch falls where the truth does. -/
theorem completed_latch (c : Fin 24) (o : StepOutcome) (l : Fin 7) (e : ActiveEntry) (s : State) (d : Fin 24) :
    ((completed c o l e s).condRow d).latch =
      if (completed c o l e s).truth d = s.truth d ∨ s.condRoute d = 0 then (s.condRow d).latch
      else (s.condRow d).latch.onFalse := by
  have truth : (completed c o l e s).truth d = s.rowTruth d ((completed c o l e s).condRow d) :=
    rowTruth_congr ((completed_walk c o l e s).image_eq (by decide)) d _
  rw [truth, truth_eq_rowTruth s d, completed_row]; dsimp only
  split
  · rfl
  · exact (if_pos (Or.inl rfl)).symm

theorem completed_besideRows (c : Fin 24) (o : StepOutcome) (l : Fin 7) (e : ActiveEntry) (s : State) :
    (completed c o l e s).rsc.besideRows = (s.rsc.faultLatch, s.rsc.active.put l none, s.rsc.auto,
      if c = 0 ∧ (o = .failed ∨ e.kind = .notice) then true else s.rsc.suppress) := by
  have cleared : ∀ held : State, (if c = 0 ∧ o = .done then clearBlackStartFlags held else held).rsc.besideRows =
      held.rsc.besideRows := fun held => by
        split
        · exact clearBlackStartFlags_besideRows held
        · exact rfl
  have suppressed : ∀ (p : Prop) [Decidable p] (x : State),
      (if p then { x with rsc.suppress := true } else x).rsc.besideRows =
        (x.rsc.faultLatch, x.rsc.active, x.rsc.auto, if p then true else x.rsc.suppress) := fun p _ x => by
    split <;> rfl
  unfold completed; dsimp only
  rw [suppressed]
  generalize (if s.condHoldOff c = 0 then none else some (s.dueIn (s.condHoldOff c))) = due
  have held := cleared (modCond c (fun r => { r with holdOff := due }) { s with rsc.active := s.rsc.active.put l none })
  simp only [Rsc.besideRows, Prod.mk.injEq] at held
  obtain ⟨fault, active, auto, suppress⟩ := held
  rw [fault, active, auto, suppress]; rfl

/-- Settles O37: the hold-off idle and running; a report without an entry and with one. -/
theorem holdOffAndCompletion : Obligations.HoldOffAndCompletion := by
  refine ⟨fun s c calm => ⟨exec_holdOffExpiry_idle calm, fun due runs => ?_⟩, fun s c o => ⟨fun free => ?_,
    fun l e here own only => ?_⟩⟩
  · have idle : (modCond c (fun r => { r with holdOff := none }) (advanceTo due s)).handovers = [] :=
      ((advanceTo_walk due s).handovers_eq (by decide)).trans calm.2
    refine ⟨fun low => ?_, fun high => ?_⟩
    · rw [exec_holdOffExpiry calm runs, low, if_neg Bool.false_ne_true, cascade_of_idle idle]
    · rw [exec_holdOffExpiry calm runs, high, if_pos rfl]
  · rw [complete, entrySlot_none free]
  · have beside := completed_besideRows c o l e s
    simp only [Rsc.besideRows, Prod.mk.injEq] at beside
    obtain ⟨fault, active, auto, suppress⟩ := beside
    refine ⟨completed c o l e s, ?_, fun l' => ?_, fun d => ?_, fun d => ?_, fun d => ?_, completed_latch c o l e s,
      suppress, auto, fault, (completed_walk c o l e s).eq_rsc⟩
    · have level : sField ((l.val : Int) + 1) = BitVec.ofNat 32 (l.val + 1) := BitVec.ofInt_natCast 32 (l.val + 1)
      rw [complete, entrySlot_some here own only]; dsimp only
      rw [here]; dsimp only
      rw [finishEntry_eq, (completed_walk c o l e s).tick_eq (by decide), level]
    · rw [active, Tab.get_put]
      simp only [eq_comm]
    · rw [completed_row]; dsimp only; split <;> rfl
    · rw [completed_row]; dsimp only
      simp only [and_assoc]
      split <;> rfl
    · rw [completed_row]; dsimp only; split <;> rfl

end Sys2Proof.Machine

/-!
SUPPORT. RSC: presented values, raises and acceptance (R57 to R70, R74).
-/
namespace Sys2Proof.Machine

/-! ### Presented values and raises (R57 to R60, R64) -/

/-- The row of a presented value. -/
def State.rowPresented (s : State) (c : Fin 24) (v : Bool) (r : CondRow) : CondRow :=
  { r with
    last := v
    flag := if s.presentSets c v then true else if s.condHold c && !v then false else r.flag
    raisedBy := if s.condHold c && !v then none else r.raisedBy }

theorem presentValue_eq (c : Fin 24) (v : Bool) (s : State) :
    presentValue c v s =
      if c = 0 && !v then { withTruth c (modCond c (s.rowPresented c v)) s with rsc.suppress := false }
      else withTruth c (modCond c (s.rowPresented c v)) s := rfl

/-- Whether the end of the C0 suppression changes anything that a latch or a row is read from: it does not. -/
theorem suppress_row (p : Prop) [Decidable p] (x : State) (d : Fin 24) :
    (if p then { x with rsc.suppress := false } else x).condRow d = x.condRow d := by split <;> rfl

theorem suppress_truth (p : Prop) [Decidable p] (x : State) (d : Fin 24) :
    (if p then { x with rsc.suppress := false } else x).truth d = x.truth d := by split <;> rfl

theorem presentValue_row (c : Fin 24) (v : Bool) (s : State) :
    let t := presentValue c v s
    t.condRow c = { s.rowPresented c v (s.condRow c) with
      latch := if t.truth c = s.truth c ∨ s.condRoute c = 0 then (s.condRow c).latch
        else if t.truth c = true then (s.condRow c).latch.onTrue else (s.condRow c).latch.onFalse } := by
  dsimp only
  rw [presentValue_eq, suppress_row, suppress_truth]
  exact withTruth_modCond_row c (s.rowPresented c v) (fun _ => rfl) s

theorem presentValue_other (c : Fin 24) (v : Bool) (s : State) {d : Fin 24} (other : d ≠ c) :
    (presentValue c v s).condRow d = s.condRow d := by
  rw [presentValue_eq, suppress_row]
  exact withTruth_modCond_other c (s.rowPresented c v) (fun _ => rfl) s other

theorem presentValue_besideRows (c : Fin 24) (v : Bool) (s : State) :
    (presentValue c v s).rsc.besideRows = (s.rsc.faultLatch, s.rsc.active, s.rsc.auto,
      if c = 0 ∧ v = false then false else s.rsc.suppress) := by
  have row := withTruth_modCond_rsc c (s.rowPresented c v) (fun _ => rfl) s
  rw [presentValue_eq]
  generalize withTruth c (modCond c (s.rowPresented c v)) s = t at row
  simp only [Bool.and_eq_true, decide_eq_true_eq, Bool.not_eq_true']
  split
  · rw [Rsc.besideRows, row]
  · rw [Rsc.besideRows, row]

/-- A presentation sets the flag by the edge or the value, outside a hold-off and the exceptions of R59. -/
theorem presentSets_iff (s : State) (c : Fin 24) (v : Bool) :
    s.presentSets c v = true ↔ v = true ∧ (s.condRow c).holdOff = none ∧
      (if s.condHold c = true then s.hasEntry c = false ∧ ¬(c = 0 ∧ s.rsc.suppress = true)
        else (s.condRow c).last = false) := by
  simp only [State.presentSets, Bool.and_eq_true, Option.isNone_iff_eq_none, and_assoc]
  refine and_congr_right fun _ => and_congr_right fun _ => ?_
  split
  · simp [Decidable.imp_iff_not_or]
  · simp

theorem rowPresented_flag (s : State) (c : Fin 24) (v : Bool) (r : CondRow) (own : r = s.condRow c) :
    (s.rowPresented c v r).flag =
      (if v = false then (if s.condHold c = true then false else (s.condRow c).flag)
        else if (s.condRow c).holdOff ≠ none then (s.condRow c).flag
        else if s.condHold c = true then
          (if s.hasEntry c = true ∨ c = 0 ∧ s.rsc.suppress = true then (s.condRow c).flag else true)
        else if (s.condRow c).last = false then true else (s.condRow c).flag) := by
  subst own
  have sets := presentSets_iff s c v
  show (if s.presentSets c v then true else if s.condHold c && !v then false else (s.condRow c).flag) = _
  cases v with
  | false =>
    have low : s.presentSets c false = false := rfl
    simp [low]
  | true =>
    simp only [Bool.not_true, Bool.and_false, Bool.false_eq_true, if_false, Bool.true_eq_false, sets]
    by_cases runs : (s.condRow c).holdOff = none
    · by_cases hold : s.condHold c = true
      · by_cases entry : s.hasEntry c = true <;> simp [runs, hold, entry]
      · simp [runs, hold]
    · simp [runs]

theorem raiseSets_iff (s : State) (c : Fin 24) :
    s.raiseSets c = true ↔ (s.condRow c).holdOff = none ∧ (s.condHold c = false ∨ s.hasEntry c = false) := by
  simp only [State.raiseSets, Bool.and_eq_true, Option.isNone_iff_eq_none, Bool.not_eq_true', Bool.and_eq_false_iff]

/-- Settles O38: one value, a list of values, a raise. -/
theorem presentedValuesAndRaises : Obligations.PresentedValuesAndRaises := by
  refine ⟨fun s c v => ?_, fun s values => ?_, fun s c subject => ⟨fun sets => ?_, fun bars => ?_⟩⟩
  · have row := presentValue_row c v s
    have beside := presentValue_besideRows c v s
    simp only [Rsc.besideRows, Prod.mk.injEq] at beside
    obtain ⟨fault, active, auto, suppress⟩ := beside
    refine ⟨?_, ?_, ?_, ?_, fun d other => presentValue_other c v s other, suppress, active, auto, fault,
      (Walk.presentValue (by decide) c v s).eq_rsc⟩
    · rw [row]; rfl
    · rw [row]; rfl
    · rw [row]; exact rowPresented_flag s c v _ rfl
    · rw [row]
  · intro t sets
    have any : (values.any fun p => s.presentSets p.1 p.2) = true ↔ sets := by
      simp only [List.any_eq_true, presentSets_iff]; rfl
    refine ⟨fun h => if_pos (any.2 h), fun h => if_neg fun k => h (any.1 k)⟩
  · exact if_pos ((raiseSets_iff s c).2 sets)
  · refine if_neg fun h => ?_
    obtain ⟨idle, free⟩ := (raiseSets_iff s c).1 h
    rcases bars with runs | ⟨hold, entry⟩
    · exact runs idle
    · rw [hold, entry] at free
      rcases free with h | h <;> exact Bool.false_ne_true h.symm

/-! ### Acceptance (R66 to R70) -/

theorem hasEntry_eq_false_iff (s : State) (c : Fin 24) :
    s.hasEntry c = false ↔ ∀ l e, s.rsc.active.get l = some e → e.cond ≠ c := by
  unfold State.hasEntry
  rw [List.any_eq_false]
  refine ⟨fun h l e here own => h l (List.mem_finRange l) (by simp [here, own]), fun h l _ k => ?_⟩
  cases here : s.rsc.active.get l with
  | none => simp [here] at k
  | some e => exact h l e here (by simpa [here] using k)

theorem eligible_iff (s : State) (c : Fin 24) :
    s.eligible c = true ↔ (s.condRow c).flag = true ∧ (s.condRow c).holdOff = none ∧
      (∀ l e, s.rsc.active.get l = some e → e.cond ≠ c) ∧
      (c ≠ 0 → s.condEnabled c = true ∧ 1 ≤ s.condLevel c ∧ s.condLevel c ≤ 6 ∧ s.rsc.auto = true) := by
  simp only [State.eligible, Bool.and_eq_true, Bool.or_eq_true, decide_eq_true_eq, Option.isNone_iff_eq_none,
    Bool.not_eq_true', hasEntry_eq_false_iff, and_assoc]
  refine and_congr_right fun _ => and_congr_right fun _ => and_congr_right fun _ => ?_
  exact ⟨fun h notC0 => h.resolve_left notC0, fun h => (Decidable.em (c = 0)).imp id h⟩

/-- The better of candidates is one of them. -/
theorem foldl_better_mem (s : State) (l : List (Fin 24)) (best : Option (Fin 24)) :
    l.foldl s.better best = best ∨ ∃ d ∈ l, l.foldl s.better best = some d := by
  induction l generalizing best with
  | nil => exact .inl rfl
  | cons d l ih =>
    rw [List.foldl_cons]
    rcases ih (s.better best d) with h | ⟨e, he, h⟩
    · rw [h]
      cases best with
      | none => exact .inr ⟨d, List.mem_cons_self, rfl⟩
      | some b =>
        unfold State.better; dsimp only; split
        · exact .inr ⟨d, List.mem_cons_self, rfl⟩
        · exact .inl rfl
    · exact .inr ⟨e, List.mem_cons_of_mem _ he, h⟩

/-- A candidate that none after it outranks stays. -/
theorem foldl_better_stays (s : State) (l : List (Fin 24)) (c : Fin 24)
    (top : ∀ d ∈ l, s.levelOf d ≤ s.levelOf c) : l.foldl s.better (some c) = some c := by
  induction l with
  | nil => rfl
  | cons d l ih =>
    have stays : s.better (some c) d = some c := if_neg (Nat.not_lt.2 (top d List.mem_cons_self))
    rw [List.foldl_cons, stays]
    exact ih fun e he => top e (List.mem_cons_of_mem _ he)

/-- The candidate is the eligible condition of the highest level, the lowest number among equals (R67). -/
theorem candidate_of_best {s : State} {c : Fin 24} (own : s.eligible c = true)
    (best : ∀ d, s.eligible d = true → s.levelOf d < s.levelOf c ∨ s.levelOf d = s.levelOf c ∧ c ≤ d) :
    s.candidate = some c := by
  have ascending : ((List.finRange 24).filter s.eligible).Pairwise (· < ·) :=
    (List.pairwise_lt_finRange 24).filter _
  obtain ⟨pre, post, parts⟩ := List.append_of_mem (List.mem_filter.2 ⟨List.mem_finRange c, own⟩)
  have eligible : ∀ d ∈ pre ++ c :: post, s.eligible d = true := fun d hd =>
    (List.mem_filter.1 (parts ▸ hd)).2
  rw [parts] at ascending
  obtain ⟨-, -, before⟩ := List.pairwise_append.1 ascending
  have lower : ∀ d ∈ pre, s.levelOf d < s.levelOf c := fun d hd => by
    have less : d < c := before d hd c List.mem_cons_self
    exact (best d (eligible d (List.mem_append_left _ hd))).resolve_right fun h => absurd h.2 (Fin.not_le.2 less)
  have top : ∀ d ∈ post, s.levelOf d ≤ s.levelOf c := fun d hd =>
    (best d (eligible d (List.mem_append_right _ (List.mem_cons_of_mem _ hd)))).elim Nat.le_of_lt fun h => Nat.le_of_eq h.1
  have takes : s.better (pre.foldl s.better none) c = some c := by
    rcases foldl_better_mem s pre none with h | ⟨d, hd, h⟩
    · rw [h]; rfl
    · rw [h]; exact if_pos (lower d hd)
  rw [State.candidate, parts, List.foldl_append, List.foldl_cons, takes, foldl_better_stays s post c top]

theorem candidate_none {s : State} (none_ : ∀ c, s.eligible c = false) : s.candidate = none := by
  have empty : (List.finRange 24).filter s.eligible = [] :=
    List.filter_eq_nil_iff.2 fun c _ h => by rw [none_ c] at h; exact Bool.false_ne_true h
  rw [State.candidate, empty]; rfl

theorem admitted_iff (s : State) (c : Fin 24) :
    s.admitted c = true ↔
      if c = 0 then s.rsc.active.get 6 = none
      else if s.sys Sys.levels = 1 then ∀ l, s.rsc.active.get l ≠ none → l.val + 1 < s.condLevel c
      else ∀ l, s.rsc.active.get l = none := by
  unfold State.admitted
  split
  · simp [State.level7]
  · split
    · simp [State.activeLevels, Classical.or_iff_not_imp_left]
    · simp [State.activeLevels, List.filter_eq_nil_iff]

theorem examine_of_mode {s : State} (other : s.sst.mode ≠ .run) : examine s = s :=
  if_neg (by simpa [State.inRun] using other)

theorem examine_of_none {s : State} (none_ : s.candidate = none) : examine s = s := by
  unfold examine; rw [none_]; exact ite_self s

theorem examine_of_some {s : State} {c : Fin 24} (run : s.sst.mode = .run) (best : s.candidate = some c) :
    examine s = if s.admitted c then accept c s else s := by
  unfold examine; rw [best]; exact if_pos (by simp [State.inRun, run])

theorem startHandover_eq (c : Fin 24) (k : ResponseKind) :
    startHandover c k = if k = .notice then .complete .rsc c .done else .startResponse c k := by
  cases k <;> rfl

theorem acceptedValues_eq (level : Nat) (k : ResponseKind) (subject : Option Nat) :
    acceptedValues level k subject =
      [BitVec.ofNat 32 level, sField k.code] ++ (subject.map fun n => [BitVec.ofNat 32 n]).getD [] := by
  have field : ∀ n : Nat, sField n = BitVec.ofNat 32 n := BitVec.ofInt_natCast 32
  cases subject <;> simp [acceptedValues, field]

theorem accept_eq (c : Fin 24) (s : State) :
    accept c s = emit (if s.kindStarted c = .notice then .complete .rsc c .done else .startResponse c (s.kindStarted c))
      (notify .accepted c.val
        ([BitVec.ofNat 32 (s.levelOf c), sField (s.kindStarted c).code] ++
          ((s.condRow c).raisedBy.map fun n => [BitVec.ofNat 32 n]).getD [])
        { clearFlag c s with
          rsc.active := (clearFlag c s).rsc.active.put (levelSlot (s.levelOf c)) (some ⟨c, s.kindStarted c, s.tick⟩) }) := by
  have tick : (clearFlag c s).tick = s.tick := (Walk.clearFlag (S := [.rsc]) (by decide) c s).tick_eq (by decide)
  unfold accept; dsimp only
  rw [startHandover_eq, acceptedValues_eq, tick]

/-- Settles O39: outside RUN; no candidate; a candidate that is not admitted and one that is. -/
theorem acceptanceTakesTheBestCandidate : Obligations.AcceptanceTakesTheBestCandidate := by
  intro s level eligible admitted
  refine ⟨examine_of_mode, fun none_ => ?_, fun c run own best => ?_⟩
  · exact examine_of_none (candidate_none fun c => Bool.eq_false_iff.2 fun h => none_ c ((eligible_iff s c).1 h))
  · have candidate : s.candidate = some c :=
      candidate_of_best ((eligible_iff s c).2 own) fun d hd => best d ((eligible_iff s d).1 hd)
    have admits : s.admitted c = true ↔ admitted c := by
      rw [admitted_iff]
      show _ ↔ if c = 0 then _ else _
      by_cases zero : c = 0
      · rw [if_pos zero, if_pos zero]
      · have own : level c = s.condLevel c := if_neg zero
        rw [if_neg zero, if_neg zero, own]
    rw [examine_of_some run candidate]
    refine ⟨fun no => if_neg fun h => no (admits.1 h), fun yes => ?_⟩
    rw [if_pos (admits.2 yes)]
    exact accept_eq c s

end Sys2Proof.Machine

/-!
SUPPORT. CHU: binding, steps, scans and completions (R79 to R93).
-/
namespace Sys2Proof.Machine

/-! ### BIND (R79, R81) -/

section
variable {k : Nat}

theorem chainKindOf_some {kind : ChainKind} (h : chainKindOf k = some kind) : k ≤ 5 ∧ kind.code = k := by
  unfold chainKindOf at h
  split at h <;> first | (cases h; exact ⟨by decide, rfl⟩) | cases h

theorem chainModeOf_some {mode : ChainMode} (h : chainModeOf k = some mode) : k ≤ 2 ∧ mode.code = k := by
  unfold chainModeOf at h
  split at h <;> first | (cases h; exact ⟨by decide, rfl⟩) | cases h

theorem chainKindOf_of_le (h : k ≤ 5) : ∃ kind, chainKindOf k = some kind := by
  obtain rfl | rfl | rfl | rfl | rfl | rfl : k = 0 ∨ k = 1 ∨ k = 2 ∨ k = 3 ∨ k = 4 ∨ k = 5 := by omega
  all_goals exact ⟨_, rfl⟩

theorem chainModeOf_of_le (h : k ≤ 2) : ∃ mode, chainModeOf k = some mode := by
  obtain rfl | rfl | rfl : k = 0 ∨ k = 1 ∨ k = 2 := by omega
  all_goals exact ⟨_, rfl⟩

theorem numberRow_some {n : Nat} {i : Fin n} (h : numberRow n k = some i) : i.val = k := by
  unfold numberRow at h
  split at h
  · cases h; rfl
  · cases h

/-- A trigger code names no condition, or one of C1 to C23. -/
theorem triggerOf_some {tr : Option (Fin 24)} (h : triggerOf k = some tr) :
    k ≠ 0 ∧ (k ≤ 23 ∨ k = 255) ∧ (tr.map fun c => c.val) = if k = 255 then none else some k := by
  unfold triggerOf at h
  split at h
  · next all => subst all; cases h; exact ⟨by decide, .inr rfl, rfl⟩
  · next notAll =>
    split at h
    · cases h
    · next notZero =>
      obtain ⟨c, row, rfl⟩ := Option.map_eq_some_iff.1 h
      have val : c.val = k := numberRow_some row
      exact ⟨notZero, .inl (by omega), by rw [if_neg notAll, ← val]; rfl⟩

theorem triggerOf_of_code (notZero : k ≠ 0) (h : k ≤ 23 ∨ k = 255) : ∃ tr, triggerOf k = some tr := by
  unfold triggerOf
  split
  · exact ⟨_, rfl⟩
  · next notAll =>
    have below : k < 24 := by omega
    exact ⟨some ⟨k, below⟩, by rw [show numberRow 24 k = some ⟨k, below⟩ from dif_pos below]; rfl⟩

end

/-- The range cases of R79 that are judged with the codes of a BIND decoded. -/
def bindRefused (kind : ChainKind) (mode : ChainMode) (body : List Byte) (s : State) : Prop :=
  (kind = .shed ∧ 3 < param body 3) ∨
  ((kind = .capDown ∨ kind = .capUp) ∧ (param body 6 < 1 ∨ 100 < param body 6)) ∨
  16 < param body 4 ∨ (mode = .burst ∧ ¬(kind = .shed ∨ kind = .restore)) ∨
  (kind = .shed ∧ param body 4 = 0 ∧ (s.shedList (listNumber (param body 3))).isEmpty = true)

section
variable {n : Fin 6} {tr : Option (Fin 24)} {kind : ChainKind} {mode : ChainMode} {body : List Byte} {s : State}

theorem bindDecoded_refused (h : bindRefused kind mode body s) (reply : Reply) :
    bindDecoded n tr kind mode body reply s = reply .range [] s := by
  unfold bindDecoded; dsimp only
  split
  · rfl
  split
  · rfl
  split
  · rfl
  split
  · rfl
  split
  · rfl
  · next a b c d e => rcases h with h | h | h | h | h <;> contradiction

theorem bindDecoded_taken (h : ¬bindRefused kind mode body s) (reply : Reply) :
    bindDecoded n tr kind mode body reply s =
      if stale (expected 7 body) (s.chain n).revision then
        reply .staleRevision (bytes16 (s.chain n).revision) s
      else if (s.chain n).flight.isSome then reply .busy [] s
      else reply .ok [] (bindChain n tr kind (listNumber (param body 3)) (param body 4) mode (param body 6) s) := by
  simp only [bindRefused, not_or] at h
  obtain ⟨a, b, c, d, e⟩ := h
  unfold bindDecoded; dsimp only
  rw [if_neg a, if_neg b, if_neg c, if_neg (by simpa using d), if_neg e]

end

theorem byte_eq_iff (b : Byte) (k : Nat) (h : k < 256) : b = BitVec.ofNat 8 k ↔ b.toNat = k := by
  rw [← BitVec.toNat_inj, BitVec.toNat_ofNat, Nat.mod_eq_of_lt h]

/-- The byte of a decoded chain kind. -/
theorem kindByte_iff {b : Byte} {kd : ChainKind} (code : kd.code = b.toNat) (k : ChainKind) :
    b = BitVec.ofInt 8 k.code ↔ kd = k := by
  have spelled : ((BitVec.ofInt 8 k.code).toNat : Int) = k.code := by cases k <;> rfl
  have injective : kd.code = k.code → kd = k := by cases kd <;> cases k <;> decide
  rw [← BitVec.toNat_inj, ← Int.ofNat_inj, spelled, ← code]
  exact ⟨injective, congrArg _⟩

/-- The byte of a decoded chain mode. -/
theorem modeByte_iff {b : Byte} {md : ChainMode} (code : md.code = b.toNat) (m : ChainMode) :
    b = BitVec.ofInt 8 m.code ↔ md = m := by
  have spelled : ((BitVec.ofInt 8 m.code).toNat : Int) = m.code := by cases m <;> rfl
  have injective : md.code = m.code → md = m := by cases md <;> cases m <;> decide
  rw [← BitVec.toNat_inj, ← Int.ofNat_inj, spelled, ← code]
  exact ⟨injective, congrArg _⟩

/-- The cases in which R79 answers a BIND with RANGE, in its parameter bytes. -/
def bindBad (s : State) (chain trigger kind list count mode step : Byte) : Prop :=
  5 < chain.toNat ∨ trigger = 0 ∨ 23 < trigger.toNat ∧ trigger ≠ 255 ∨ 5 < kind.toNat ∨
    2 < mode.toNat ∨ kind = 0 ∧ 3 < list.toNat ∨
    (kind = 4 ∨ kind = 5) ∧ (step.toNat < 1 ∨ 100 < step.toNat) ∨ 16 < count.toNat ∨
    mode = 1 ∧ kind ≠ 0 ∧ kind ≠ 1 ∨ kind = 0 ∧ count = 0 ∧ s.shedList ⟨list.toNat % 4, by omega⟩ = []

/-- R79 judges the bytes of a BIND as its decoded codes. -/
theorem bind_bad_iff {s : State} {chain trigger kind list count mode step : Byte} {rev : List Byte}
    {kd : ChainKind} {md : ChainMode}
    (kindRow : chainKindOf kind.toNat = some kd) (modeRow : chainModeOf mode.toNat = some md)
    {tr : Option (Fin 24)} (triggerRow : triggerOf trigger.toNat = some tr) {n : Fin 6} (chainRow : n.val = chain.toNat) :
    bindBad s chain trigger kind list count mode step ↔
    bindRefused kd md (chain :: trigger :: kind :: list :: count :: mode :: step :: rev) s := by
  obtain ⟨kindMax, kindCode⟩ := chainKindOf_some kindRow
  obtain ⟨modeMax, modeCode⟩ := chainModeOf_some modeRow
  obtain ⟨notZero, triggerMax, -⟩ := triggerOf_some triggerRow
  have k0 : kind = 0 ↔ kd = .shed := kindByte_iff kindCode .shed
  have k1 : kind = 1 ↔ kd = .restore := kindByte_iff kindCode .restore
  have k4 : kind = 4 ↔ kd = .capDown := kindByte_iff kindCode .capDown
  have k5 : kind = 5 ↔ kd = .capUp := kindByte_iff kindCode .capUp
  have m1 : mode = 1 ↔ md = .burst := modeByte_iff modeCode .burst
  have c0 : count = 0 ↔ count.toNat = 0 := byte_eq_iff count 0 (by decide)
  have t0 : trigger = 0 ↔ False := by
    rw [show (0 : Byte) = BitVec.ofNat 8 0 from rfl, byte_eq_iff _ _ (by decide)]; simpa using notZero
  have t255 : trigger = 255 ↔ trigger.toNat = 255 := byte_eq_iff trigger 255 (by decide)
  have chainMax : ¬5 < chain.toNat := by have := n.isLt; omega
  have triggerFine : ¬(23 < trigger.toNat ∧ trigger ≠ 255) := by rw [Ne, t255]; omega
  simp only [bindBad, bindRefused, k0, k1, k4, k5, m1, c0, t0, chainMax, triggerFine, Nat.not_lt.2 kindMax, Nat.not_lt.2 modeMax, false_or,
    not_or, Ne, List.isEmpty_iff, param, List.getD_cons_succ, List.getD_cons_zero, listNumber]

section
variable {s : State} {chain trigger kind list count mode step : Byte} {rev : List Byte}

theorem bindAct_refused
    (bad : bindBad s chain trigger kind list count mode step)
    (reply : Reply) :
    bindAct (chain :: trigger :: kind :: list :: count :: mode :: step :: rev) reply s = reply .range [] s := by
  unfold bindAct
  split
  · next n tr kd md chainRow triggerRow kindRow modeRow =>
    exact bindDecoded_refused ((bind_bad_iff kindRow modeRow triggerRow (numberRow_some chainRow)).1 bad) reply
  · rfl

/-- A BIND that R79 does not refuse for its range is judged by its revision and the step in flight. -/
theorem bindAct_taken {n : Fin 6} (name : n.val = chain.toNat)
    (fine : ¬bindBad s chain trigger kind list count mode step) :
    ∃ tr kd md, triggerOf trigger.toNat = some tr ∧ chainKindOf kind.toNat = some kd ∧
      chainModeOf mode.toNat = some md ∧ ∀ reply : Reply,
        bindAct (chain :: trigger :: kind :: list :: count :: mode :: step :: rev) reply s =
          if stale (expected 7 (chain :: trigger :: kind :: list :: count :: mode :: step :: rev)) (s.chain n).revision then
            reply .staleRevision (bytes16 (s.chain n).revision) s
          else if (s.chain n).flight.isSome then reply .busy [] s
          else reply .ok [] (bindChain n tr kd (listNumber list.toNat) count.toNat md step.toNat s) := by
  have parts := fine
  simp only [bindBad, not_or] at parts
  obtain ⟨-, t0, tMax, kMax, mMax, -⟩ := parts
  have t255 : trigger = 255 ↔ trigger.toNat = 255 := byte_eq_iff trigger 255 (by decide)
  obtain ⟨tr, triggerRow⟩ := triggerOf_of_code (k := trigger.toNat)
    (fun h => t0 (BitVec.eq_of_toNat_eq h)) (by rw [Ne, t255] at tMax; omega)
  obtain ⟨kd, kindRow⟩ := chainKindOf_of_le (Nat.not_lt.1 kMax)
  obtain ⟨md, modeRow⟩ := chainModeOf_of_le (Nat.not_lt.1 mMax)
  have chainRow : numberRow 6 chain.toNat = some n := name ▸ numberRow_val n
  refine ⟨tr, kd, md, triggerRow, kindRow, modeRow, fun reply => ?_⟩
  have taken := bindDecoded_taken (n := n) (tr := tr)
    (fun h => fine ((bind_bad_iff (rev := rev) kindRow modeRow triggerRow name).2 h)) reply
  refine Eq.trans ?_ taken
  unfold bindAct
  simp only [param, List.getD_cons_zero, List.getD_cons_succ, chainRow, triggerRow, kindRow, modeRow]

end

theorem sField_natCast (n : Nat) : sField n = BitVec.ofNat 32 n := BitVec.ofInt_natCast 32 n

theorem notify_chain_eq (n : Fin 6) (e : Int) (values : List Word) (s : State) :
    notifyChain n e values s = notify .chain n.val (sField e :: values) s := rfl

theorem bindChain_handovers (n : Fin 6) (tr : Option (Fin 24)) (kind : ChainKind) (list : Fin 4) (count : Nat)
    (mode : ChainMode) (size : Nat) (s : State) :
    (bindChain n tr kind list count mode size s).handovers = s.handovers := by
  unfold bindChain; dsimp only
  rw [notify_chain_eq, notify_handovers]; rfl

/-- Settles O40: refused for its range, stale, in step, and the row an OK writes. -/
theorem bindTable : Obligations.BindTable := by
  intro s tag chain trigger kind list count mode step rev len body ht feeders bad
  have fit : (decide (body.length = 7) || decide (body.length = 9)) = true := by
    rcases len with h | h <;> simp [body, h]
  refine ⟨fun h => ?_, fun n name fine => ?_⟩
  · exact request_answered (bindAct body) (t := s.taken) (st := .range) ht fit (bindAct_refused (s := s.taken) h) rfl
  · intro row
    obtain ⟨tr, kd, md, triggerRow, kindRow, modeRow, act⟩ := bindAct_taken (s := s.taken) (rev := rev) name fine
    obtain ⟨-, kindCode⟩ := chainKindOf_some kindRow
    obtain ⟨-, modeCode⟩ := chainModeOf_some modeRow
    obtain ⟨-, -, triggerCode⟩ := triggerOf_some triggerRow
    have fresh := stale_expected_iff [chain, trigger, kind, list, count, mode, step] rev row.revision len
    have notStale : revisionGood rev row.revision → ¬(stale (expected 7 body) row.revision = true) := fun good h =>
      Bool.false_ne_true ((fresh.2 good).symm.trans h)
    refine ⟨fun other => ?_, fun good inStep => ?_, fun good idle => ?_⟩
    · exact request_answered (bindAct body) (t := s.taken) (st := .staleRevision) ht fit
        (fun reply => (act reply).trans (if_pos (eq_true_of_ne_false (mt fresh.1 other)))) rfl
    · exact request_answered (bindAct body) (t := s.taken) (st := .busy) ht fit
        (fun reply => (act reply).trans ((if_neg (notStale good)).trans (if_pos (Option.isSome_iff_ne_none.2 inStep)))) rfl
    · have done := request_answered (bindAct body) (st := .ok) ht fit
        (fun reply => (act reply).trans ((if_neg (notStale good)).trans (if_neg (by rw [show s.taken.chain n = row from rfl, idle]; simp))))
        (bindChain_handovers n tr kd (listNumber list.toNat) count.toNat md step.toNat s.taken)
      have k0 : kd = .shed ↔ kind = 0 := (kindByte_iff kindCode .shed).symm
      have cap : (kd = .capDown ∨ kd = .capUp) ↔ kind = 4 ∨ kind = 5 :=
        or_congr (kindByte_iff kindCode .capDown).symm (kindByte_iff kindCode .capUp).symm
      have c0 : count = 0 ↔ count.toNat = 0 := byte_eq_iff count 0 (by decide)
      have t255 : trigger = 255 ↔ trigger.toNat = 255 := byte_eq_iff trigger 255 (by decide)
      have listMax : kind = 0 → list.toNat % 4 = list.toNat := fun h =>
        Nat.mod_eq_of_lt (Nat.lt_of_not_le fun above => fine (.inr (.inr (.inr (.inr (.inr (.inl ⟨h, above⟩)))))))
      refine ⟨⟨tr, kd, if kd = .shed then some (listNumber list.toNat) else none, 0,
        if count.toNat = 0 then (if kd = .shed then feeders.length else 16) else count.toNat, md,
        if kd = .capDown || kd = .capUp then some step.toNat else none, none, row.revision + 1⟩, tr, ?_, rfl, kindCode,
        modeCode, ?_, ?_, rfl, rfl, rfl, ?_, ?_⟩
      · simpa only [t255] using triggerCode
      · simp only [k0]
        split
        · next h => exact congrArg some (listMax h)
        · rfl
      · simp only [Bool.or_eq_true, decide_eq_true_eq, cap]
      · simp only [c0, k0, ne_eq, ite_not]
      · refine done.trans ?_
        rw [← sField_natCast, ← kindCode, ← sField_natCast]
        rfl

end Sys2Proof.Machine

/-!
SUPPORT. CHU: the scans of a SHED and of a RESTORE step, the steps of each kind, and STEP (R83 to R93).
-/
namespace Sys2Proof.Machine

/-- Two choices by equivalent tests, with the same results. -/
theorem ite_congr_iff {α : Sort _} {p q : Prop} [Decidable p] [Decidable q] {a b c d : α} (test : p ↔ q) (yes : a = c)
    (no : b = d) : (if p then a else b) = if q then c else d :=
  ite_congr (propext test) (fun _ => yes) fun _ => no

/-! ### The scans (R84 to R86) -/

section
variable (s : State)

@[simp] theorem shedScan_zero (pos : Nat) (l : List (Fin 16)) : s.shedScan 0 pos l = ([], pos) := by
  cases l <;> rfl

@[simp] theorem shedScan_nil (want pos : Nat) : s.shedScan want pos [] = ([], pos) := by cases want <;> rfl

theorem shedScan_take (want pos : Nat) {f : Fin 16} (l : List (Fin 16)) (h : s.sheddable f = true) :
    s.shedScan (want + 1) pos (f :: l) =
      (f :: (s.shedScan want (pos + 1) l).1, (s.shedScan want (pos + 1) l).2) := if_pos h

theorem shedScan_pass (want pos : Nat) {f : Fin 16} (l : List (Fin 16)) (h : ¬s.sheddable f = true) :
    s.shedScan (want + 1) pos (f :: l) = s.shedScan (want + 1) (pos + 1) l := if_neg h

theorem shedScan_found (want pos : Nat) (l : List (Fin 16)) :
    (s.shedScan want pos l).1 = (l.filter s.sheddable).take want := by
  induction l generalizing want pos with
  | nil => simp
  | cons f l ih =>
    cases want with
    | zero => simp
    | succ want =>
      by_cases h : s.sheddable f = true
      · rw [shedScan_take s want pos l h, List.filter_cons_of_pos h, List.take_succ_cons, ih]
      · rw [shedScan_pass s want pos l h, List.filter_cons_of_neg h, ih]

/-- A scan that does not find all it wants looks at every entry. -/
theorem shedScan_end (want pos : Nat) (l : List (Fin 16)) (few : (s.shedScan want pos l).1.length < want) :
    (s.shedScan want pos l).2 = pos + l.length := by
  induction l generalizing want pos with
  | nil => simp
  | cons f l ih =>
    cases want with
    | zero => exact absurd few (Nat.not_lt_zero _)
    | succ want =>
      by_cases h : s.sheddable f = true
      · rw [shedScan_take s want pos l h] at few ⊢
        have rest := ih want (pos + 1) (Nat.lt_of_succ_lt_succ few)
        simp only [rest, List.length_cons]; omega
      · rw [shedScan_pass s want pos l h] at few ⊢
        rw [ih (want + 1) (pos + 1) few, List.length_cons]; omega

/-- A scan that finds all it wants ends behind the last feeder found. -/
theorem shedScan_last (want pos : Nat) (l : List (Fin 16)) (some_ : 0 < want)
    (all : (s.shedScan want pos l).1.length = want) : ∃ pre f post, l = pre ++ f :: post ∧
      (pre ++ [f]).filter s.sheddable = (s.shedScan want pos l).1 ∧ s.sheddable f = true ∧
      (s.shedScan want pos l).2 = pos + pre.length + 1 := by
  induction l generalizing want pos with
  | nil => simp at all; omega
  | cons f l ih =>
    obtain ⟨want, rfl⟩ : ∃ k, want = k + 1 := ⟨want - 1, by omega⟩
    by_cases h : s.sheddable f = true
    · rw [shedScan_take s want pos l h] at all ⊢
      cases want with
      | zero => exact ⟨[], f, l, rfl, by simp [h], h, by simp⟩
      | succ want =>
        obtain ⟨pre, g, post, parts, found, own, last⟩ := ih (want + 1) (pos + 1) (by omega) (Nat.succ.inj all)
        refine ⟨f :: pre, g, post, by rw [parts]; rfl, ?_, own, ?_⟩
        · rw [List.cons_append, List.filter_cons_of_pos h, found]
        · simp only [last, List.length_cons]; omega
    · rw [shedScan_pass s want pos l h] at all ⊢
      obtain ⟨pre, g, post, parts, found, own, last⟩ := ih (want + 1) (pos + 1) some_ all
      refine ⟨f :: pre, g, post, by rw [parts]; rfl, ?_, own, ?_⟩
      · rw [List.cons_append, List.filter_cons_of_neg h, found]
      · rw [last, List.length_cons]; omega

/-- A scan passes exceeds the entries that may not be tripped. -/
theorem shedScan_skip (want pos : Nat) (pre l : List (Fin 16)) (none_ : ∀ q ∈ pre, ¬s.sheddable q = true) :
    s.shedScan (want + 1) pos (pre ++ l) = s.shedScan (want + 1) (pos + pre.length) l := by
  induction pre generalizing pos with
  | nil => rfl
  | cons f pre ih =>
    rw [List.cons_append, shedScan_pass s want pos _ (none_ f List.mem_cons_self),
      ih _ fun q hq => none_ q (List.mem_cons_of_mem _ hq), List.length_cons]
    congr 1; omega

@[simp] theorem restoreScan_zero (h : Int) (l : List (Fin 16)) : s.restoreScan 0 h l = [] := by cases l <;> rfl

@[simp] theorem restoreScan_nil (want : Nat) (h : Int) : s.restoreScan want h [] = [] := by cases want <;> rfl

theorem restoreScan_take (want : Nat) {h : Int} {f : Fin 16} (l : List (Fin 16))
    (fits : s.need f + s.sys Sys.restoreMargin ≤ h) :
    s.restoreScan (want + 1) h (f :: l) = f :: s.restoreScan want (h - s.need f) l :=
  if_pos (decide_eq_true fits)

theorem restoreScan_stop (want : Nat) {h : Int} {f : Fin 16} (l : List (Fin 16))
    (exceeds : h < s.need f + s.sys Sys.restoreMargin) : s.restoreScan (want + 1) h (f :: l) = [] :=
  if_neg fun k => absurd (of_decide_eq_true k) (Int.not_le.2 exceeds)

/-- A RESTORE scan takes entries from the head while each fits the headroom that the ones before it leave. -/
theorem restoreScan_spec (want : Nat) (h : Int) (l : List (Fin 16)) : ∃ k, s.restoreScan want h l = l.take k ∧
    k ≤ want ∧ k ≤ l.length ∧
    (∀ i (hi : i < l.length), i < k →
      s.need l[i] + s.sys Sys.restoreMargin ≤ h - ((l.take i).map s.need).sum) ∧
    (∀ hk : k < l.length, k < want →
      h - ((l.take k).map s.need).sum < s.need l[k] + s.sys Sys.restoreMargin) := by
  induction l generalizing want h with
  | nil => exact ⟨0, by simp⟩
  | cons f l ih =>
    cases want with
    | zero => exact ⟨0, by simp⟩
    | succ want =>
      by_cases fits : s.need f + s.sys Sys.restoreMargin ≤ h
      · obtain ⟨k, scan, kWant, kLen, each, stop⟩ := ih want (h - s.need f)
        refine ⟨k + 1, by rw [restoreScan_take s want l fits, scan]; rfl, by omega, by simpa using kLen, ?_, ?_⟩
        · intro i hi hk
          cases i with
          | zero => simpa using fits
          | succ i =>
            have this := each i (by simpa using hi) (by omega)
            simp only [List.getElem_cons_succ, List.take_succ_cons, List.map_cons, List.sum_cons]; omega
        · intro hk less
          have this := stop (by simpa using hk) (by omega)
          simp only [List.getElem_cons_succ, List.take_succ_cons, List.map_cons, List.sum_cons]; omega
      · refine ⟨0, by rw [restoreScan_stop s want l (by omega)]; rfl, by omega, by omega, ?_, ?_⟩
        · intro i _ hi; omega
        · intro _ _; simp; omega

theorem sheddable_iff (f : Fin 16) : s.sheddable f = true ↔ s.feederInstalled f = true ∧
    s.feederEssential f = false ∧ (s.feederRec f).outOfService = false ∧ (s.feederRec f).state = .closed := by
  simp only [State.sheddable, Bool.and_eq_true, Bool.not_eq_true', decide_eq_true_eq, and_assoc]

end

/-! ### The kinds of step (R83 to R90) -/

section
variable {s : State} {n : Fin 6} (c : Option (Fin 24))

theorem takeStep_shed (mode : (s.chain n).mode ≠ .count) (kind : (s.chain n).kind = .shed) :
    takeStep n c s = shedStep n c s := by
  unfold takeStep; dsimp only; rw [if_neg mode, kind]

theorem takeStep_restore (mode : (s.chain n).mode ≠ .count) (kind : (s.chain n).kind = .restore) :
    takeStep n c s = restoreStep n c s := by
  unfold takeStep; dsimp only; rw [if_neg mode, kind]

theorem takeStep_start (mode : (s.chain n).mode ≠ .count) (kind : (s.chain n).kind = .start) :
    takeStep n c s = startStep n c s := by
  unfold takeStep; dsimp only; rw [if_neg mode, kind]

theorem takeStep_stop (mode : (s.chain n).mode ≠ .count) (kind : (s.chain n).kind = .stop) :
    takeStep n c s = stopStep n c s := by
  unfold takeStep; dsimp only; rw [if_neg mode, kind]

/-- A COUNT step (R90). -/
theorem takeStep_count (mode : (s.chain n).mode = .count) :
    takeStep n c s = (completeStep n .done (beginStep n c [] ((s.chain n).count - 1) (s.chain n).cursor s), 1) := by
  unfold takeStep; dsimp only; rw [if_pos mode]; rfl

/-- A CAP step (R89). -/
theorem takeStep_cap (mode : (s.chain n).mode ≠ .count)
    (kind : (s.chain n).kind = .capDown ∨ (s.chain n).kind = .capUp) :
    takeStep n c s = (completeStep n .done
      (moveCap (if (s.chain n).kind = .capDown then -(((s.chain n).stepSize.getD 0 : Nat) : Int)
        else (((s.chain n).stepSize.getD 0 : Nat) : Int))
        (beginStep n c [] ((s.chain n).count - 1) (s.chain n).cursor s)), 1) := by
  unfold takeStep; dsimp only; rw [if_neg mode]
  rcases kind with kind | kind <;> rw [kind] <;> rfl

theorem want_single (single : (s.chain n).mode = .single) : (s.chain n).want = 1 := by rw [Chain.want, single]; rfl

theorem want_burst (burst : (s.chain n).mode = .burst) : (s.chain n).want = (s.chain n).count := by
  rw [Chain.want, burst]; rfl

/-- A SHED step, by what its scan finds (R84, R85). -/
theorem shedStep_none {cursor : Nat}
    (scan : s.shedScan (s.chain n).want (s.chain n).cursor ((s.chainFeeders (s.chain n)).drop (s.chain n).cursor) =
      ([], cursor)) :
    shedStep n c s = (completeStep n .none
      (beginStep n c [] 0 (min cursor (s.chainFeeders (s.chain n)).length) s), 0) := by
  unfold shedStep; dsimp only; rw [scan]; rfl

theorem shedStep_some {units : List (Fin 16)} {cursor : Nat} (found : units ≠ [])
    (scan : s.shedScan (s.chain n).want (s.chain n).cursor ((s.chainFeeders (s.chain n)).drop (s.chain n).cursor) =
      (units, cursor)) :
    shedStep n c s = ((ascending units).foldl (fun s f => tripFeeder f (.chain n) s)
      (beginStep n c ((ascending units).map .feeder) ((s.chain n).count - units.length)
        (min cursor (s.chainFeeders (s.chain n)).length) s), units.length) := by
  unfold shedStep; dsimp only; rw [scan]
  exact if_neg (by simpa using found)

/-- A RESTORE step, by the queue and what its scan finds (R86). -/
theorem restoreStep_empty (empty : s.fdc.queue = []) :
    restoreStep n c s = (completeStep n .none (beginStep n c [] 0 (s.chain n).cursor s), 0) := by
  unfold restoreStep; dsimp only; rw [empty]; rfl

theorem restoreStep_none (queued : s.fdc.queue ≠ [])
    (scan : s.restoreScan (s.chain n).want s.headroom s.fdc.queue = []) :
    restoreStep n c s = (completeStep n .none (beginStep n c [] (s.chain n).count (s.chain n).cursor s), 0) := by
  unfold restoreStep; dsimp only; rw [scan]
  exact if_neg (by simpa using queued)

theorem restoreStep_some {units : List (Fin 16)} (queued : s.fdc.queue ≠ []) (found : units ≠ [])
    (scan : s.restoreScan (s.chain n).want s.headroom s.fdc.queue = units) :
    restoreStep n c s = ((ascending units).foldl (fun s f => closeFeeder f (.chain n) s)
      (beginStep n c ((ascending units).map .feeder) ((s.chain n).count - units.length) (s.chain n).cursor s),
      units.length) := by
  unfold restoreStep; dsimp only; rw [scan]
  exact (if_neg (by simpa using queued)).trans (if_neg (by simpa using found))

theorem ascending_singleton : ∀ f : Fin 16, ascending [f] = [f] := by decide

theorem startStep_none (none_ : s.startSelection = none) :
    startStep n c s = (completeStep n .none (beginStep n c [] 0 (s.chain n).cursor s), 0) := by
  unfold startStep; dsimp only; rw [none_]; rfl

theorem startStep_some {g : Fin 6} (some_ : s.startSelection = some g) :
    startStep n c s = (startSet g (.chain n) (beginStep n c [.set g] ((s.chain n).count - 1) (s.chain n).cursor s), 1) := by
  unfold startStep; dsimp only; rw [some_]

theorem stopStep_none (none_ : s.stopSelection = none ∨ s.onlineCount < 2) :
    stopStep n c s = (completeStep n .none (beginStep n c [] 0 (s.chain n).cursor s), 0) := by
  unfold stopStep; dsimp only
  rcases none_ with none_ | few
  · rw [none_]; rfl
  · split
    · rfl
    · rw [if_pos few]; rfl

theorem stopStep_some {g : Fin 6} (some_ : s.stopSelection = some g) (more : 2 ≤ s.onlineCount) :
    stopStep n c s =
      (stopSet g (some (.chain n)) (beginStep n c [.set g] ((s.chain n).count - 1) (s.chain n).cursor s), 1) := by
  unfold stopStep; dsimp only; rw [some_]; exact if_neg (Nat.not_lt.2 more)

end

/-! ### A step of SINGLE mode (R84, R86) -/

section
variable {s : State} {n : Fin 6} (c : Option (Fin 24)) (single : (s.chain n).mode = .single)
include single

theorem takeStep_singleShed_none (kind : (s.chain n).kind = .shed)
    (none_ : ∀ f ∈ (s.chainFeeders (s.chain n)).drop (s.chain n).cursor, ¬s.sheddable f = true) :
    takeStep n c s = (completeStep n .none
      (beginStep n c [] 0 (s.chainFeeders (s.chain n)).length s), 0) := by
  have scan := shedScan_skip s 0 (s.chain n).cursor _ [] none_
  rw [List.append_nil, shedScan_nil] at scan
  rw [takeStep_shed c (by rw [single]; decide) kind,
    shedStep_none c (by rw [want_single single]; exact scan), List.length_drop]
  congr 3; omega

theorem takeStep_singleShed_some (kind : (s.chain n).kind = .shed) {pre post : List (Fin 16)} {f : Fin 16}
    (parts : (s.chainFeeders (s.chain n)).drop (s.chain n).cursor = pre ++ f :: post)
    (own : s.sheddable f = true) (skipped : ∀ q ∈ pre, ¬s.sheddable q = true) :
    takeStep n c s = (tripFeeder f (.chain n)
      (beginStep n c [.feeder f] ((s.chain n).count - 1) ((s.chain n).cursor + pre.length + 1) s), 1) := by
  have scan := shedScan_skip s 0 (s.chain n).cursor pre (f :: post) skipped
  rw [shedScan_take s 0 _ post own, shedScan_zero, ← parts] at scan
  have len : ((s.chainFeeders (s.chain n)).drop (s.chain n).cursor).length = pre.length + (post.length + 1) := by
    rw [parts, List.length_append, List.length_cons]
  rw [List.length_drop] at len
  have cursor : min ((s.chain n).cursor + pre.length + 1) (s.chainFeeders (s.chain n)).length =
      (s.chain n).cursor + pre.length + 1 := by omega
  rw [takeStep_shed c (by rw [single]; decide) kind,
    shedStep_some c (List.cons_ne_nil f []) (by rw [want_single single]; exact scan), ascending_singleton, cursor]
  rfl

theorem takeStep_singleRestore_fits (kind : (s.chain n).kind = .restore) {f : Fin 16} {rest : List (Fin 16)}
    (queue : s.fdc.queue = f :: rest) (fits : s.need f + s.sys Sys.restoreMargin ≤ s.headroom) :
    takeStep n c s = (closeFeeder f (.chain n)
      (beginStep n c [.feeder f] ((s.chain n).count - 1) (s.chain n).cursor s), 1) := by
  have scan : s.restoreScan 1 s.headroom s.fdc.queue = [f] := by
    rw [queue, restoreScan_take s 0 rest fits, restoreScan_zero]
  rw [takeStep_restore c (by rw [single]; decide) kind, restoreStep_some c (by rw [queue]; simp)
    (List.cons_ne_nil f []) (by rw [want_single single]; exact scan), ascending_singleton]
  rfl

theorem takeStep_singleRestore_exceeds (kind : (s.chain n).kind = .restore) {f : Fin 16} {rest : List (Fin 16)}
    (queue : s.fdc.queue = f :: rest) (exceeds : s.headroom < s.need f + s.sys Sys.restoreMargin) :
    takeStep n c s = (completeStep n .none (beginStep n c [] (s.chain n).count (s.chain n).cursor s), 0) := by
  have scan : s.restoreScan 1 s.headroom s.fdc.queue = [] := by rw [queue]; exact restoreScan_stop s 0 rest exceeds
  rw [takeStep_restore c (by rw [single]; decide) kind,
    restoreStep_none c (by rw [queue]; simp) (by rw [want_single single]; exact scan)]

end

/-! ### STEP (R93) -/

section
variable {s : State} {tag chain : Byte} {n : Fin 6}

theorem stepAct_chain (name : n.val = chain.toNat) (reply : Reply) :
    stepAct [chain] reply s =
      if s.sst.mode ≠ .run then reply .mode [] s
      else if s.rsc.active.get 6 ≠ none then reply .busy [] s
      else if (s.chain n).count = 0 then reply .state [] s
      else if (s.chain n).flight ≠ none then reply .busy [] s
      else reply .ok (sBytes [(takeStep n none s).2, ((takeStep n none s).1.chain n).count]) (takeStep n none s).1 := by
  have row : numberRow 6 (param [chain] 0) = some n := by
    rw [show param [chain] 0 = n.val from name.symm, numberRow_val]
  unfold stepAct; rw [row]; dsimp only
  refine ite_congr_iff (by simp [State.inRun]) rfl (ite_congr_iff (by simp [State.level7, Option.isSome_iff_ne_none]) rfl
    (ite_congr_iff Iff.rfl rfl (ite_congr_iff Option.isSome_iff_ne_none rfl rfl)))

theorem exec_step_refused {st : Status} (ht : s.takes 0x0F tag [chain])
    (act : ∀ reply : Reply, stepAct [chain] reply s.taken = reply st [] s.taken) :
    exec (.step tag [chain]) s = .next (s.taken.replied 0x8F tag [st.code]) :=
  request_answered (stepAct [chain]) ht rfl act rfl

/-- A STEP of a bound chain that is not in step, in RUN without a level-7 entry, takes a step. -/
theorem exec_step_taken {u : State} {units : Nat} (ht : s.takes 0x0F tag [chain]) (name : n.val = chain.toNat)
    (run : s.sst.mode = .run) (free : s.rsc.active.get 6 = none) (bound : (s.chain n).count ≠ 0)
    (idle : (s.chain n).flight = none) (taken : takeStep n none s.taken = (u, units)) :
    exec (.step tag [chain]) s = .next (cascade (u.replied 0x8F tag
      (0 :: bytes32 (BitVec.ofNat 32 units) ++ bytes32 (BitVec.ofNat 32 (u.chain n).count)))) := by
  refine request_cascade (stepAct [chain]) ht rfl ?_
  have act := stepAct_chain (s := s.taken) name (answer 0x0F tag)
  rw [taken] at act
  refine act.trans ((if_neg (Classical.not_not.2 run)).trans ((if_neg (Classical.not_not.2 free)).trans
    ((if_neg bound).trans ((if_neg (Classical.not_not.2 idle)).trans ?_))))
  have values : sBytes [(units : Int), ((u.chain n).count : Int)] =
      bytes32 (BitVec.ofNat 32 units) ++ bytes32 (BitVec.ofNat 32 (u.chain n).count) := by
    rw [← sField_natCast, ← sField_natCast]; simp [sBytes]
  dsimp only
  rw [values]; rfl

end

theorem moveCap_eq (delta : Int) (s : State) : moveCap delta s =
    if max 0 (min 100 (s.ctx.capPct + delta)) = s.ctx.capPct then s
    else notify .plant 0 [0, sField (max 0 (min 100 (s.ctx.capPct + delta)))]
      { s with ctx.capPct := max 0 (min 100 (s.ctx.capPct + delta)) } := rfl

theorem beginStep_eq (s : State) (n : Fin 6) (c : Option (Fin 24)) (units : List PlantUnit) (count cursor : Nat) :
    beginStep n c units count cursor s = { s with
      chains := s.chains.put n { s.chain n with
        flight := some ⟨c, units, false⟩, count := count, cursor := cursor,
        revision := (s.chain n).revision + 1 } } := rfl

/-- Settles O42: the refusals in their order, then a step of each kind and mode. -/
theorem stepTable : Obligations.StepTable := by
  intro s tag chain ht refused
  refine ⟨fun above => ?_, fun n name => ?_⟩
  · refine exec_step_refused (st := .range) ht fun reply => ?_
    have row : numberRow 6 (param [chain] 0) = none := numberRow_of_le above
    rw [stepAct, row]
  intro row
  have act := stepAct_chain (s := s.taken) name
  refine ⟨fun other => ?_, fun run full => ?_, fun run free unbound => ?_, fun run free bound inStep => ?_,
    fun run free bound idle => ?_⟩
  · exact exec_step_refused (st := .mode) ht fun reply => (act reply).trans (if_pos other)
  · exact exec_step_refused (st := .busy) ht fun reply =>
      (act reply).trans ((if_neg (Classical.not_not.2 run)).trans (if_pos full))
  · exact exec_step_refused (st := .state) ht fun reply =>
      (act reply).trans ((if_neg (Classical.not_not.2 run)).trans ((if_neg (Classical.not_not.2 free)).trans (if_pos unbound)))
  · exact exec_step_refused (st := .busy) ht fun reply =>
      (act reply).trans ((if_neg (Classical.not_not.2 run)).trans ((if_neg (Classical.not_not.2 free)).trans
        ((if_neg bound).trans (if_pos inStep))))
  intro base answered exhausted
  have takes : ∀ {u units}, takeStep n none base = (u, units) → exec (.step tag [chain]) s = answered units u :=
    fun taken => exec_step_taken ht name run free bound idle taken
  have notCount : row.mode = .single → row.mode ≠ .count := fun h => by rw [h]; decide
  refine ⟨fun count => takes (takeStep_count none count), fun notCount cap => ?_, fun single kind => ?_,
    fun single kind => ?_, fun single kind => ?_, fun single kind => ?_⟩
  · intro size cap' begun
    refine takes ((takeStep_cap (s := base) none notCount cap).trans ?_)
    have sum : s.ctx.capPct + (if row.kind = .capDown then -size else size) =
        if row.kind = .capDown then s.ctx.capPct - size else s.ctx.capPct + size := by split <;> omega
    have moved := moveCap_eq (if row.kind = .capDown then -size else size) begun
    rw [show begun.ctx.capPct = s.ctx.capPct from rfl, sum] at moved
    exact congrArg (fun x => (completeStep n .done x, 1)) moved
  · exact ⟨fun none_ => takes (takeStep_singleShed_none (s := base) none single kind fun f hf h =>
        none_ f hf ((sheddable_iff base f).1 h)),
      fun pre f post parts own skipped => takes (takeStep_singleShed_some (s := base) none single kind parts
        ((sheddable_iff base f).2 own) fun q hq h => skipped q hq ((sheddable_iff base q).1 h))⟩
  · exact ⟨fun empty => takes ((takeStep_restore (s := base) none (notCount single) kind).trans (restoreStep_empty none empty)),
      fun f rest queue => ⟨fun fits => takes (takeStep_singleRestore_fits (s := base) none single kind queue fits),
        fun exceeds => takes (takeStep_singleRestore_exceeds (s := base) none single kind queue exceeds)⟩⟩
  · have step := takeStep_start (s := base) none (notCount single) kind
    exact ⟨fun none_ => takes (step.trans (startStep_none none none_)),
      fun g some_ => takes (step.trans (startStep_some none some_))⟩
  · have step := takeStep_stop (s := base) none (notCount single) kind
    exact ⟨fun none_ => takes (step.trans (stopStep_none none none_)),
      fun g some_ more => takes (step.trans (stopStep_some none some_ more))⟩

/-- Settles O43: the two scans, a BURST step of each kind, and STEP. -/
theorem burstScans : Obligations.BurstScans := by
  refine ⟨fun s want pos l => ⟨shedScan_found s want pos l, shedScan_end s want pos l, shedScan_last s want pos l⟩,
    restoreScan_spec, fun s n c burst => ?_, fun s tag chain n ht name run free bound idle burst u units taken =>
    exec_step_taken ht name run free bound idle taken⟩
  intro row rising
  have notCount : (s.chain n).mode ≠ .count := by rw [burst]; decide
  have want := want_burst burst
  refine ⟨fun kind units cursor scan => ⟨fun found => ?_, fun none_ => ⟨fun bound => ?_, ?_⟩⟩,
    fun kind => ⟨fun empty => ?_, fun f rest queue exceeds => ?_, fun units scan found => ?_⟩⟩
  · exact (takeStep_shed c notCount kind).trans (shedStep_some c found (by rw [want]; exact scan))
  · have few : (s.shedScan row.count row.cursor ((s.chainFeeders row).drop row.cursor)).1.length < row.count := by
      rw [scan, none_]; exact Nat.pos_of_ne_zero bound
    have last := shedScan_end s _ _ _ few
    rw [scan, List.length_drop] at last
    dsimp only at last
    omega
  · subst none_
    exact (takeStep_shed c notCount kind).trans (shedStep_none c (by rw [want]; exact scan))
  · exact (takeStep_restore c notCount kind).trans (restoreStep_empty c empty)
  · refine (takeStep_restore c notCount kind).trans (restoreStep_none c (by rw [queue]; simp) ?_)
    rw [queue]
    cases (s.chain n).want with
    | zero => rfl
    | succ k => exact restoreScan_stop s k rest exceeds
  · refine (takeStep_restore c notCount kind).trans (restoreStep_some c ?_ found (by rw [want]; exact scan))
    intro empty
    rw [empty, restoreScan_nil] at scan
    exact found scan.symm

/-! ### Completions (R82, R91) -/

/-- The report of a completed step to the condition whose acceptance took it (R91). -/
def completionReport (o : StepOutcome) (flight : Option Flight) : List Handover :=
  match flight with
  | some ⟨some c, _, _⟩ => [.complete .chu c o]
  | _ => []

/-- The state a completion leaves before its notice and its reports. -/
def State.stepEnded (n : Fin 6) (s : State) : State :=
  { s with chains := s.chains.put n { s.chain n with
      flight := none, trigger := if (s.chain n).count = 0 then none else (s.chain n).trigger,
      revision := (s.chain n).revision + 1 } }

/-- That report is made, for a step taken for a condition. -/
def reportCompletion (o : StepOutcome) (flight : Option Flight) (b : State) : State :=
  match flight.bind Flight.forCond with
  | some c => emit (.complete .chu c o) b
  | none => b

theorem reportCompletion_eq (o : StepOutcome) (flight : Option Flight) (b : State) :
    reportCompletion o flight b = { b with handovers := b.handovers ++ completionReport o flight } := by
  have unchanged : b = { b with handovers := b.handovers ++ [] } := by rw [List.append_nil]
  match flight with
  | none => exact unchanged
  | some ⟨none, _, _⟩ => exact unchanged
  | some ⟨some c, _, _⟩ => rfl

theorem raiseWhen_eq (p : Prop) [Decidable p] (m : Handover) (b : State) :
    (if p then emit m b else b) = { b with handovers := b.handovers ++ if p then [m] else [] } := by
  split
  · rfl
  · rw [List.append_nil]

theorem completeStep_eq (s : State) (n : Fin 6) (o : StepOutcome) :
    completeStep n o s =
      { notify .chain n.val
          [2, sField o.code, BitVec.ofNat 32 (s.chain n).count, if (s.chain n).count = 0 then 1 else 0]
          (s.stepEnded n) with
        handovers := s.handovers ++ completionReport o (s.chain n).flight ++
          if (s.chain n).count = 0 then [.raise (chainDone n) n.val] else [] } := by
  have unbound : yesNo (decide ((s.chain n).count = 0)) = if (s.chain n).count = 0 then 1 else 0 := by
    by_cases h : (s.chain n).count = 0 <;> simp [h] <;> rfl
  have written : modChain n (fun ch => { ch with
      flight := none, trigger := if (decide ((s.chain n).count = 0)) = true then none else ch.trigger,
      revision := ch.revision + 1 }) s = s.stepEnded n := by
    simp only [decide_eq_true_eq]; rfl
  have handovers : (notify .chain n.val [2, sField o.code, BitVec.ofNat 32 (s.chain n).count,
      if (s.chain n).count = 0 then 1 else 0] (s.stepEnded n)).handovers = s.handovers := notify_handovers ..
  have ended : notifyChain n 2 [sField o.code, sField (s.chain n).count, yesNo (decide ((s.chain n).count = 0))]
      (modChain n (fun ch => { ch with
        flight := none, trigger := if (decide ((s.chain n).count = 0)) = true then none else ch.trigger,
        revision := ch.revision + 1 }) s) =
      notify .chain n.val [2, sField o.code, BitVec.ofNat 32 (s.chain n).count,
        if (s.chain n).count = 0 then 1 else 0] (s.stepEnded n) := by
    rw [written, unbound, sField_natCast]; rfl
  simp only [decide_eq_true_eq] at ended
  have whole : ∀ b, b = notifyChain n 2 [sField o.code, sField (s.chain n).count, yesNo (decide ((s.chain n).count = 0))]
      (modChain n (fun ch => { ch with
        flight := none, trigger := if (s.chain n).count = 0 then none else ch.trigger,
        revision := ch.revision + 1 }) s) → completeStep n o s = if (s.chain n).count = 0 then
      emit (.raise (chainDone n) n.val) (reportCompletion o (s.chain n).flight b)
      else reportCompletion o (s.chain n).flight b := by
    rintro b rfl
    rfl
  rw [whole _ ended.symm, raiseWhen_eq, reportCompletion_eq, handovers]

/-- The first index of a kind. -/
theorem find?_finRange {n : Nat} {p : Fin n → Bool} {i : Fin n} (own : p i = true) (first : ∀ j < i, p j = false) :
    (List.finRange n).find? p = some i := by
  obtain ⟨pre, post, parts⟩ := List.append_of_mem (List.mem_finRange i)
  have sorted := List.pairwise_lt_finRange n
  rw [parts] at sorted
  obtain ⟨-, -, before⟩ := List.pairwise_append.1 sorted
  exact List.find?_eq_some_iff_append.2 ⟨own, pre, post, parts, fun j hj => by
    rw [first j (before j hj i List.mem_cons_self)]; rfl⟩

/-- Settles O44: how a step begins, how it completes, the end of one of its units, and the chain that serves. -/
theorem stepsCompleteWithTheirLastUnit : Obligations.StepsCompleteWithTheirLastUnit := by
  refine ⟨beginStep_eq, fun s n o => completeStep_eq s n o, fun s n u ok => ?_, fun s c => ?_⟩
  · intro row
    refine ⟨fun idle => ?_, fun fl inStep => ⟨fun other => ?_, fun own => ?_⟩⟩
    · unfold unitEnded; rw [show (s.chain n).flight = none from idle]
    · unfold unitEnded; rw [show (s.chain n).flight = some fl from inStep]; exact if_neg other
    · intro fl' b
      have ended : unitEnded n u ok s =
          if fl'.units.isEmpty then completeStep n (if fl'.failed then .failed else .done) b else b := by
        unfold unitEnded; rw [show (s.chain n).flight = some fl from inStep]; exact if_pos own
      refine ⟨fun more => ?_, fun last => ?_⟩
      · rw [ended, if_neg (by simpa using more)]
      · rw [ended, if_pos (by simpa using last)]
  · intro serves start
    have qualifies : ∀ n, s.qualifies c n = true ↔ serves n := fun n => by
      simp only [State.qualifies, Bool.and_eq_true, decide_eq_true_eq, Option.isNone_iff_eq_none, and_assoc]; rfl
    have chosen : start = match (List.finRange 6).find? (s.qualifies c) with
      | none => emit (.complete .chu c .none) s
      | some n => (takeStep n (some c) s).1 := rfl
    refine ⟨fun none_ => ?_, fun n own first => ?_⟩
    · have empty : (List.finRange 6).find? (s.qualifies c) = none :=
        List.find?_eq_none.2 fun n _ h => none_ n ((qualifies n).1 h)
      rw [chosen, empty]
    · have found : (List.finRange 6).find? (s.qualifies c) = some n :=
        find?_finRange ((qualifies n).2 own) fun m less => Bool.eq_false_iff.2 (mt (qualifies m).1 (first m less))
      rw [chosen, found]

end Sys2Proof.Machine

/-!
SUPPORT. GSD: the move of a set, in its row, the crank queue, the permits and its reports (R98 to R100, R114, R116).
-/
namespace Sys2Proof.Machine

/-! ### The row a set enters a state with (R98, R105) -/

/-- The timer of a state (R98). -/
theorem setTimerFor_eq (s : State) (new : SetState) :
    s.setTimerFor new = if s.sst.mode ≠ .run then none else match new with
      | .cranking => some (s.dueIn (s.sysNat Sys.crankTime))
      | .runUp => some (s.dueIn (s.sysNat Sys.syncTime))
      | .stopping => some (s.dueIn (s.sysNat Sys.stopTime))
      | .rest => some (s.dueIn (s.sysNat Sys.restTime))
      | _ => none := by
  unfold State.setTimerFor State.inRun
  by_cases run : s.sst.mode = .run
  · rw [if_pos (decide_eq_true run), if_neg (Classical.not_not.2 run)] <;> rfl
  · rw [if_neg (by simpa using run), if_pos run]

theorem enterSet_eq (s : State) (new : SetState) (r : SetRec) :
    s.enterSet new r = { r with
      state := new
      attempts := if new = .online then 0 else r.attempts
      timer := s.setTimerFor new
      onlineSince := if new = .online then some s.tick else none
      minRunMet := decide (new = .online) && decide (s.sysNat Sys.minRun = 0)
      minRunTimer := if new = .online ∧ s.sysNat Sys.minRun ≠ 0 then
        some (s.dueIn (s.sysNat Sys.minRun * 1000)) else none
      onlineMs := 0 } := by
  have zero : s.sysNat Sys.minRun * 1000 = 0 ↔ s.sysNat Sys.minRun = 0 := by omega
  unfold State.enterSet
  by_cases online : new = .online
  · subst online
    simp only [if_true, zero, decide_true, Bool.true_and, true_and, ne_eq, ite_not]
  · simp only [online, false_and, if_false, decide_false, Bool.false_and]

/-! ### The reports of a move (R114, R116, R151) -/

/-- What GSD hands over when the start of a set for an origin ends (R114). -/
def startReport (g : Fin 6) (ok : Bool) (origin : Option Origin) : List Handover :=
  match origin with
  | some (.response c) => [.complete .gsd c (if ok = true then .done else .failed)]
  | some (.chain n) => [.chainUnitEnd n (.set g) ok]
  | some .blackstart => [.bssStartEnd g ok]
  | _ => []

/-- What GSD hands over when the stop of a set for an owner ends (R91, R116). -/
def stopReport (g : Fin 6) (new : SetState) (owner : Option Origin) : List Handover :=
  match owner with
  | some (.response c) => [.complete .gsd c .done]
  | some (.chain n) => [.chainUnitEnd n (.set g) (decide (new ≠ .lockout))]
  | _ => []

theorem withHandovers_nil (s : State) : { s with handovers := s.handovers ++ [] } = s := by rw [List.append_nil]

theorem reportStart_eq (o : Origin) (g : Fin 6) (ok : Bool) (s : State) :
    reportStart o g ok s = { s with handovers := s.handovers ++ startReport g ok (some o) } := by
  cases o with
  | response c => rfl
  | chain n => rfl
  | blackstart => rfl
  | manual => exact (withHandovers_nil s).symm
  | host => exact (withHandovers_nil s).symm

theorem reportStop_eq (o : Origin) (g : Fin 6) (new : SetState) (s : State) :
    reportStop o g new s = { s with handovers := s.handovers ++ stopReport g new (some o) } := by
  cases o with
  | response c => rfl
  | chain n =>
    have told : (new != .lockout) = decide (new ≠ .lockout) := by cases new <;> rfl
    show emit (.chainUnitEnd n (.set g) (new != .lockout)) s = _
    rw [told]; rfl
  | blackstart => exact (withHandovers_nil s).symm
  | manual => exact (withHandovers_nil s).symm
  | host => exact (withHandovers_nil s).symm

/-! ### The stages of a move -/

/-- A state in which a set moves: its row, and what has been handed over so far. -/
def State.inMove (s : State) (g : Fin 6) (r : SetRec) (hs : List Handover) : State :=
  { s with gsd.sets := s.gsd.sets.put g r, handovers := s.handovers ++ hs }

section
variable (s : State) (g : Fin 6) (r : SetRec) (hs : List Handover)

theorem inMove_setRec : (s.inMove g r hs).setRec g = r := Tab.get_put_self ..

theorem put_put {n : Nat} {α : Type} (t : Tab n α) (i : Fin n) (x y : α) : (t.put i x).put i y = t.put i y :=
  Tab.ext_get fun j => by
    simp only [Tab.get_put]
    split <;> rfl

theorem modSet_inMove (f : SetRec → SetRec) : modSet g f (s.inMove g r hs) = s.inMove g (f r) hs := by
  have rows : (s.inMove g r hs).gsd.sets.modify g f = s.gsd.sets.put g (f r) := by
    show (s.gsd.sets.put g r).put g (f ((s.gsd.sets.put g r).get g)) = _
    rw [put_put, Tab.get_put_self]
  unfold modSet; rw [rows]; rfl

theorem inMove_handsOver (more : List Handover) :
    { s.inMove g r hs with handovers := (s.inMove g r hs).handovers ++ more } = s.inMove g r (hs ++ more) := by
  rw [State.inMove, State.inMove]; dsimp only; rw [List.append_assoc]

theorem tellBss_inMove (old new : SetState) : tellBss g old new (s.inMove g r hs) = s.inMove g r (hs ++
    if s.sst.mode = .run ∧ s.bss.program ≠ .idle then [.bssSetMoved g old new] else []) := by
  have told : tellBss g old new (s.inMove g r hs) =
      if (decide (s.sst.mode = .run) && s.bss.program != .idle) = true then
        emit (.bssSetMoved g old new) (s.inMove g r hs) else s.inMove g r hs := rfl
  rw [told, ← inMove_handsOver]
  by_cases h : s.sst.mode = .run ∧ s.bss.program ≠ .idle
  · rw [if_pos h, if_pos (by simpa using h)]; rfl
  · rw [if_neg h, if_neg (by simpa using h), List.append_nil]

theorem endStart_inMove (new : SetState) : endStart g new (s.inMove g r hs) =
    s.inMove g { r with origin := if endsStart new then none else r.origin }
      (hs ++ if endsStart new then startReport g (new = .online) r.origin else []) := by
  unfold endStart; rw [inMove_setRec]
  cases origin : r.origin with
  | none =>
    have same : { r with origin := none } = r := by rw [← origin]
    rw [ite_self, same, show startReport g (decide (new = .online)) none = [] from rfl, ite_self, List.append_nil]
  | some o =>
    dsimp only
    split
    · rw [modSet_inMove, reportStart_eq, inMove_handsOver]
    · have same : { r with origin := some o } = r := by rw [← origin]
      rw [same, List.append_nil]

theorem endStop_inMove (old new : SetState) : endStop g old new (s.inMove g r hs) =
    s.inMove g { r with stopOwner := if old = .stopping then none else r.stopOwner }
      (hs ++ if old = .stopping then stopReport g new r.stopOwner else []) := by
  unfold endStop; rw [inMove_setRec]
  cases owner : r.stopOwner with
  | none =>
    have same : { r with stopOwner := none } = r := by rw [← owner]
    rw [ite_self, same, show stopReport g new none = [] from rfl, ite_self, List.append_nil]
  | some o =>
    dsimp only
    split
    · rw [modSet_inMove, reportStop_eq, inMove_handsOver]
    · have same : { r with stopOwner := some o } = r := by rw [← owner]
      rw [same, List.append_nil]

end

/-! ### The move (R98 to R100) -/

/-- A notice is queued beside the registers of GSD. -/
theorem notify_withGsd (k : NoticeKind) (n : Nat) (vs : List Word) (d : Gsd) (s : State) :
    notify k n vs { s with gsd := d } = { notify k n vs s with gsd := d } := by
  unfold notify; dsimp only; split <;> rfl

/-- The row of a set after a move to another state. -/
def State.movedSet (s : State) (new : SetState) (r : SetRec) : SetRec :=
  { s.enterSet new r with
    origin := if endsStart new then none else r.origin
    stopOwner := if r.state = .stopping then none else r.stopOwner }

/-- What a move hands over. -/
def State.moveReports (s : State) (g : Fin 6) (new : SetState) (r : SetRec) : List Handover :=
  (if s.sst.mode = .run ∧ s.bss.program ≠ .idle then [.bssSetMoved g r.state new] else []) ++
  (if endsStart new then startReport g (new = .online) r.origin else []) ++
  (if r.state = .stopping then stopReport g new r.stopOwner else [])

/-- The UNIT notice of a row (R99). -/
def rowNotice (g : Fin 6) (r : SetRec) (s : State) : State :=
  notify .unit (g.val + 1) [setMarker, sField r.state.code, sField r.attempts, sField (boolInt r.outOfService)] s

theorem enterSet_origins (s : State) (new : SetState) (r : SetRec) :
    (s.enterSet new r).origin = r.origin ∧ (s.enterSet new r).stopOwner = r.stopOwner := by
  rw [enterSet_eq]; exact ⟨rfl, rfl⟩

/-- A move to another state: the notice, the place in the queue and the permits, the row and the reports. -/
theorem moveSet_changed {g : Fin 6} {new : SetState} {s : State} (changes : (s.setRec g).state ≠ new) :
    moveSet g new s =
      ({ rowNotice g (s.enterSet new (s.setRec g)) s with
        gsd := crankPlace g (s.setRec g).state new s.gsd } : State).inMove g
        (s.movedSet new (s.setRec g)) (s.moveReports g new (s.setRec g)) := by
  rw [moveSet_of_ne changes]
  dsimp only
  have noticed : notifySet g (modSet g (({ s with gsd := crankPlace g (s.setRec g).state new s.gsd } : State).enterSet new)
      { s with gsd := crankPlace g (s.setRec g).state new s.gsd }) =
      ({ rowNotice g (s.enterSet new (s.setRec g)) s with
        gsd := crankPlace g (s.setRec g).state new s.gsd } : State).inMove g (s.enterSet new (s.setRec g)) [] := by
    rw [notifySet, modSet_setRec_self, State.inMove, List.append_nil]
    exact notify_withGsd .unit (g.val + 1) _
      { crankPlace g (s.setRec g).state new s.gsd with
        sets := s.gsd.sets.put g (s.enterSet new (s.setRec g)) } s
  obtain ⟨origin, owner⟩ := enterSet_origins s new (s.setRec g)
  have mode : (rowNotice g (s.enterSet new (s.setRec g)) s).sst = s.sst := notify_sst ..
  have program : (rowNotice g (s.enterSet new (s.setRec g)) s).bss = s.bss := notify_bss ..
  rw [noticed, tellBss_inMove, endStart_inMove, endStop_inMove]
  dsimp only
  rw [mode, program, origin, owner]
  rfl

theorem endsStart_iff (new : SetState) :
    endsStart new = true ↔ new ∈ ([.online, .lockout, .unavailable, .standby] : List SetState) := by
  cases new <;> decide

/-- Settles O45: a move to the state the set is in; the parts of a move to another. -/
theorem setMovesFollowTheRules : Obligations.SetMovesFollowTheRules := by
  intro s g new r t r'
  refine ⟨fun stays => ?_, fun changes => ?_⟩
  · exact if_pos stays
  · have moved : t = _ := moveSet_changed changes
    have row : r' = s.movedSet new r := by
      show t.setRec g = _
      rw [moved, inMove_setRec]
    refine ⟨?_, fun h other => moveSet_other g h new s other.symm, ?_, ?_, ?_, ?_⟩
    · rw [row, State.movedSet, enterSet_eq, setTimerFor_eq]
      simp only [endsStart_iff] <;> rfl
    · rw [moved]
      show (if new = .queued then _ ++ [g] else _) = _
      split
      · rfl
      · exact (List.append_nil _).symm
    · exact congrArg (fun x => x.gsd.permits) moved
    · have handed : t.handovers = s.handovers ++ s.moveReports g new r := by
        have here := congrArg State.handovers moved
        rw [State.inMove] at here; dsimp only at here
        rwa [rowNotice, notify_handovers] at here
      rw [handed, State.moveReports, ← List.append_assoc, ← List.append_assoc]
      simp only [endsStart_iff, startReport, stopReport, decide_eq_true_eq] <;> rfl
    · have notice : rowNotice g (s.enterSet new r) s = notify .unit (g.val + 1)
          [0x5345, sField new.code, BitVec.ofNat 32 r'.attempts, if r.outOfService = true then 1 else 0] s := by
        have out : sField (boolInt r.outOfService) = if r.outOfService = true then 1 else 0 := by
          cases r.outOfService <;> rfl
        rw [rowNotice, row, State.movedSet, sField_natCast, ← out, enterSet_eq]; rfl
      rw [← notice, moved]; rfl

end Sys2Proof.Machine

/-!
SUPPORT. GSD: revisions, the crank queue's service, starts and stops, and the selections (R97, R100, R101, R113 to R116).
-/
namespace Sys2Proof.Machine

/-! ### Revisions (R97) -/

theorem sameRow_iff (a b : SetRec) : a.sameRow b = true ↔
    a.state = b.state ∧ a.attempts = b.attempts ∧ a.retry = b.retry ∧
      a.onlineSince = b.onlineSince ∧ a.minRunMet = b.minRunMet ∧ a.origin = b.origin ∧
      a.stopOwner = b.stopOwner ∧ a.outOfService = b.outOfService ∧ a.runSeconds = b.runSeconds := by
  simp only [SetRec.sameRow, Bool.and_eq_true, decide_eq_true_eq, and_assoc]

/-- The row of a set after an event at GSD. -/
theorem gsdEvent_row (f : State → State) (s : State) (g : Fin 6) :
    (gsdEvent f s).setRec g = if (s.setRec g).sameRow ((f s).setRec g) = true then (f s).setRec g
      else { (f s).setRec g with revision := ((f s).setRec g).revision + 1 } := Tab.get_mapIdx ..

/-! ### The service of the crank queue (R100) -/

theorem crankPermits_le (s : State) : s.sysNat Sys.crankPermits ≤ 3 := by
  have range : ∀ v, (ItemName.sys Sys.crankPermits).inRange v = true → v ≤ 3 := fun v h => by
    have both : (decide ((1 : Int) ≤ v) && decide (v ≤ 3)) = true := h
    simp only [Bool.and_eq_true, decide_eq_true_eq] at both
    exact both.2
  have setting : s.sys Sys.crankPermits ≤ 3 := by
    unfold State.sys State.setting; dsimp only
    split
    · next h => exact range _ h
    · decide
  unfold State.sysNat; omega

section
variable {s : State}

theorem serveUpTo_done (n : Nat) (h : s.gsd.queue = [] ∨ s.sysNat Sys.crankPermits ≤ s.gsd.permits) :
    serveUpTo n s = s := by
  cases n with
  | zero => rfl
  | succ n =>
    unfold serveUpTo; split
    · rfl
    · next head tail queue =>
      exact if_neg (Nat.not_lt.2 (h.resolve_left fun empty => by rw [empty] at queue; cases queue))

theorem serveUpTo_serves (n : Nat) {g : Fin 6} {rest : List (Fin 6)} (queue : s.gsd.queue = g :: rest)
    (free : s.gsd.permits < s.sysNat Sys.crankPermits) :
    serveUpTo (n + 1) s = serveUpTo n (moveSet g .cranking s) := by
  rw [serveUpTo, queue]; exact if_pos free

end

theorem sysNat_congr {s t : State} (image : t.sst.image = s.sst.image) (f : Fin 38) : t.sysNat f = s.sysNat f := by
  unfold State.sysNat State.sys State.setting; rw [image]

/-- As many services as there can be free permits leave no set waiting beside a free permit. -/
theorem serveUpTo_full (n : Nat) (s : State) (ok : s.gsd.CrankOk)
    (enough : s.sysNat Sys.crankPermits ≤ s.gsd.permits + n) :
    (serveUpTo n s).gsd.queue = [] ∨ s.sysNat Sys.crankPermits ≤ (serveUpTo n s).gsd.permits := by
  induction n generalizing s with
  | zero => exact .inr enough
  | succ n ih =>
    by_cases done : s.gsd.queue = [] ∨ s.sysNat Sys.crankPermits ≤ s.gsd.permits
    · rw [serveUpTo_done _ done]; exact done
    · obtain ⟨waits, free⟩ := not_or.1 done
      obtain ⟨g, rest, queue⟩ := List.exists_cons_of_ne_nil waits
      have queued : (s.setRec g).state = .queued := (ok.2.1 g).1 (queue ▸ List.mem_cons_self)
      have moved := moveSet_changed (g := g) (new := .cranking) (s := s) (by rw [queued]; decide)
      have permits : (moveSet g .cranking s).gsd.permits = s.gsd.permits + 1 := by
        rw [moved, queued]; rfl
      have permitted : (moveSet g .cranking s).sysNat Sys.crankPermits = s.sysNat Sys.crankPermits :=
        sysNat_congr ((Quiet.moveSet g .cranking s).sst ▸ rfl) _
      rw [serveUpTo_serves n queue (Nat.not_le.1 free), ← permitted]
      exact ih _ ((Quiet.moveSet g .cranking s).crank ok) (by rw [permitted, permits]; omega)

/-! ### Starts (R101) -/

theorem startSet_taken {s : State} {g : Fin 6} (o : Origin) (run : s.sst.mode = .run)
    (standby : (s.setRec g).state = .standby) :
    startSet g o s = gsdEvent (fun s => serveQueue (moveSet g .queued
      (modSet g (fun r => { r with attempts := 0, origin := some o }) s))) s :=
  if_pos (by simp [State.inRun, run, standby])

theorem startSet_refused {s : State} {g : Fin 6} (o : Origin)
    (h : ¬(s.sst.mode = .run ∧ (s.setRec g).state = .standby)) :
    startSet g o s = { s with handovers := s.handovers ++ startReport g false (some o) } := by
  rw [← reportStart_eq]
  exact if_neg (by simpa [State.inRun] using h)

/-! ### The selections (R113) -/

section
variable {α : Type} {step : Option α → α → Option α} {replaces : α → α → Prop}

/-- A fold that keeps the best candidate so far. -/
def KeepsBest (step : Option α → α → Option α) (replaces : α → α → Prop) : Prop :=
  (∀ g, step none g = some g) ∧ (∀ b g, replaces b g → step (some b) g = some g) ∧
    ∀ b g, ¬replaces b g → step (some b) g = some b

theorem KeepsBest.fold_stays (best : KeepsBest step replaces) {g : α} {l : List α} (stays : ∀ h ∈ l, ¬replaces g h) :
    l.foldl step (some g) = some g := by
  induction l with
  | nil => rfl
  | cons h l ih =>
    rw [List.foldl_cons, best.2.2 g h (stays h List.mem_cons_self)]
    exact ih fun x hx => stays x (List.mem_cons_of_mem _ hx)

theorem KeepsBest.fold_mem (best : KeepsBest step replaces) (l : List α) (b : α) :
    l.foldl step (some b) = some b ∨ ∃ h ∈ l, l.foldl step (some b) = some h := by
  induction l generalizing b with
  | nil => exact .inl rfl
  | cons h l ih =>
    rw [List.foldl_cons]
    by_cases r : replaces b h
    · rw [best.2.1 b h r]
      rcases ih h with e | ⟨x, hx, e⟩
      · exact .inr ⟨h, List.mem_cons_self, e⟩
      · exact .inr ⟨x, List.mem_cons_of_mem _ hx, e⟩
    · rw [best.2.2 b h r]
      rcases ih b with e | ⟨x, hx, e⟩
      · exact .inl e
      · exact .inr ⟨x, List.mem_cons_of_mem _ hx, e⟩

/-- A candidate that replaces all before it and is replaced by none after it is the best. -/
theorem KeepsBest.fold_best (best : KeepsBest step replaces) {pre post : List α} {g : α}
    (before : ∀ h ∈ pre, replaces h g) (after : ∀ h ∈ post, ¬replaces g h) :
    (pre ++ g :: post).foldl step none = some g := by
  have takes : step (pre.foldl step none) g = some g := by
    cases pre with
    | nil => exact best.1 g
    | cons b pre =>
      rw [List.foldl_cons, best.1 b]
      rcases best.fold_mem pre b with e | ⟨h, hh, e⟩
      · rw [e]; exact best.2.1 b g (before b List.mem_cons_self)
      · rw [e]; exact best.2.1 h g (before h (List.mem_cons_of_mem _ hh))
  rw [List.foldl_append, List.foldl_cons, takes]
  exact best.fold_stays after

/-- Among some candidates there is a best, when a candidate that replaces another replaces all that the other outranks. -/
theorem exists_best (weak : ∀ a b c, replaces b c → replaces a b ∨ ¬replaces b a → replaces a c) (l : List α) (some_ : l ≠ []) :
    ∃ pre g post, l = pre ++ g :: post ∧ (∀ h ∈ pre, replaces h g) ∧ ∀ h ∈ post, ¬replaces g h := by
  induction l with
  | nil => exact absurd rfl some_
  | cons x l ih =>
    by_cases empty : l = []
    · subst empty; exact ⟨[], x, [], rfl, by simp, by simp⟩
    · obtain ⟨pre, g, post, rfl, before, after⟩ := ih empty
      by_cases r : replaces x g
      · exact ⟨x :: pre, g, post, rfl, List.forall_mem_cons.2 ⟨r, before⟩, after⟩
      · refine ⟨[], x, pre ++ g :: post, rfl, by simp, fun h hh better => ?_⟩
        rcases List.mem_append.1 hh with hp | hp
        · exact r (weak x h g (before h hp) (.inl better))
        · rcases List.mem_cons.1 hp with rfl | hp
          · exact r better
          · exact after h hp (weak g x h better (.inr r))

theorem KeepsBest.fold_iff (best : KeepsBest step replaces)
    (weak : ∀ a b c, replaces b c → replaces a b ∨ ¬replaces b a → replaces a c) (l : List α) (g : α) :
    l.foldl step none = some g ↔ ∃ pre post, l = pre ++ g :: post ∧ (∀ h ∈ pre, replaces h g) ∧
      ∀ h ∈ post, ¬replaces g h := by
  refine ⟨fun chosen => ?_, fun ⟨pre, post, parts, before, after⟩ => parts ▸ best.fold_best before after⟩
  have some_ : l ≠ [] := by rintro rfl; cases chosen
  obtain ⟨pre, g', post, rfl, before, after⟩ := exists_best weak l some_
  obtain rfl : g' = g := Option.some.inj ((best.fold_best before after).symm.trans chosen)
  exact ⟨pre, post, rfl, before, after⟩

end

theorem keepsBest_fewer (s : State) :
    KeepsBest s.fewer fun b g => (s.setRec g).runSeconds < (s.setRec b).runSeconds :=
  ⟨fun _ => rfl, fun _ _ h => if_pos h, fun _ _ h => if_neg h⟩

theorem keepsBest_more (s : State) :
    KeepsBest s.more fun b g => (s.setRec b).runSeconds ≤ (s.setRec g).runSeconds :=
  ⟨fun _ => rfl, fun _ _ h => if_neg (BitVec.not_lt.2 h), fun _ _ h => if_pos (BitVec.not_le.1 h)⟩

/-- Policy MERIT: the first candidate starts and the last one stops. -/
theorem selections_merit {s : State} (merit : s.sys Sys.policy ≠ 1) :
    s.startSelection = s.startCandidates.head? ∧ s.stopSelection = s.stopCandidates.getLast? := by
  have off : s.rotation = false := decide_eq_false merit
  unfold State.startSelection State.stopSelection
  rw [off]; exact ⟨rfl, rfl⟩

/-- Policy ROTATION: run seconds decide. -/
theorem selections_rotation {s : State} (rotation : s.sys Sys.policy = 1) :
    s.startSelection = s.startCandidates.foldl s.fewer none ∧ s.stopSelection = s.stopCandidates.foldl s.more none := by
  have on : s.rotation = true := decide_eq_true rotation
  unfold State.startSelection State.stopSelection
  rw [on]; exact ⟨rfl, rfl⟩

theorem stopNext_eq (c : Fin 24) (s : State) :
    (s.stopSelection = none ∨ s.onlineCount < 2 → stopNext c s = emit (.complete .gsd c .none) s) ∧
    ∀ g, s.stopSelection = some g → 2 ≤ s.onlineCount → stopNext c s = stopSet g (some (.response c)) s := by
  unfold stopNext
  refine ⟨fun h => ?_, fun g chosen more => ?_⟩
  · rcases h with none_ | few
    · rw [none_]
    · split
      · rfl
      · exact if_pos few
  · rw [chosen]; exact if_neg (Nat.not_lt.2 more)

/-- Settles O46: revisions, the service, a start, a stop, the two responses, and the selections. -/
theorem queueStartsAndSelections : Obligations.QueueStartsAndSelections := by
  refine ⟨fun f s => ⟨rfl, fun g => ?_⟩, fun s => ⟨fun h => serveUpTo_done 3 h, fun n g rest queue free =>
    serveUpTo_serves n queue free, fun ok => ⟨(Quiet.serveQueue s).crank ok, ?_⟩⟩, fun s g o => ⟨fun h => ?_, fun h => ?_⟩,
    fun _ _ _ => rfl, fun s c => ⟨fun none_ => ?_, fun g chosen => ?_, (stopNext_eq c s).1, (stopNext_eq c s).2⟩,
    fun s => ⟨fun merit => ?_, fun rotation => ⟨fun g => ?_, fun g => ?_⟩⟩⟩
  · exact (gsdEvent_row f s g).trans (ite_congr_iff (sameRow_iff _ _) rfl rfl)
  · exact serveUpTo_full 3 s ok (Nat.le_trans (crankPermits_le s) (Nat.le_add_left 3 _))
  · exact startSet_taken o h.1 h.2
  · rw [startSet_refused o h]
    cases o <;> rfl
  · show startNext c s = _
    unfold startNext; rw [none_]
  · show startNext c s = _
    unfold startNext; rw [chosen]
  · obtain ⟨start, stop⟩ := selections_merit merit
    exact ⟨start.trans List.head?_filter, stop.trans List.getLast?_filter⟩
  · rw [(selections_rotation rotation).1, (keepsBest_fewer s).fold_iff fun a b c bc ab => ?_]
    · simp only [BitVec.not_lt]; rfl
    · simp only [BitVec.lt_def] at bc ab ⊢; omega
  · rw [(selections_rotation rotation).2, (keepsBest_more s).fold_iff fun a b c bc ab => ?_]
    · simp only [BitVec.not_le]; rfl
    · simp only [BitVec.le_def] at bc ab ⊢; omega

end Sys2Proof.Machine

/-!
SUPPORT. GENSET and RUNTIME (R112, R117 to R119).
-/
namespace Sys2Proof.Machine

/-! ### Units by their number, and revisions (R2, R182) -/

theorem unitRow_val {n k : Nat} {i : Fin n} (name : i.val + 1 = k) : unitRow n k = some i := by
  subst name
  exact dif_pos ⟨Nat.le_add_left 1 _, i.isLt⟩

theorem unitRow_none {n k : Nat} (h : k = 0 ∨ n < k) : unitRow n k = none :=
  dif_neg fun ⟨lo, hi⟩ => by omega

theorem byte_eq_zero_iff (b : Byte) : b = 0 ↔ b.toNat = 0 := byte_eq_iff b 0 (by decide)

/-- A given revision that is not the row's is stale. -/
theorem stale_of_other {params rev : List Byte} {row : Revision} (len : rev.length = 0 ∨ rev.length = 2)
    (other : ¬revisionGood rev row) : stale (expected params.length (params ++ rev)) row = true :=
  eq_true_of_ne_false (mt (stale_expected_iff params rev row len).1 other)

theorem not_stale_of_good {params rev : List Byte} {row : Revision} (len : rev.length = 0 ∨ rev.length = 2)
    (good : revisionGood rev row) : ¬stale (expected params.length (params ++ rev)) row = true := by
  rw [(stale_expected_iff params rev row len).2 good]; exact Bool.false_ne_true

/-- One event at GSD is what it does to the state. -/
theorem gsdEvent_congr {f f' : State → State} {s : State} (h : f s = f' s) : gsdEvent f s = gsdEvent f' s := by
  unfold gsdEvent; rw [h]

/-! ### GENSET (R117 to R119) -/

theorem setActionOf_of_le {k : Nat} (h : k ≤ 4) :
    ∃ a, setActionOf k = some a ∧ ((a = .start ∨ a = .stop) ↔ k ≤ 1) := by
  obtain rfl | rfl | rfl | rfl | rfl : k = 0 ∨ k = 1 ∨ k = 2 ∨ k = 3 ∨ k = 4 := by omega
  · exact ⟨.start, rfl, by decide⟩
  · exact ⟨.stop, rfl, by decide⟩
  · exact ⟨.takeOut, rfl, by decide⟩
  · exact ⟨.bringIn, rfl, by decide⟩
  · exact ⟨.clearLockout, rfl, by decide⟩

theorem setActionOf_none {k : Nat} (h : 4 < k) : setActionOf k = none := by
  unfold setActionOf
  split <;> first | omega | rfl

section
variable {s : State} {unit action : Byte} {rev : List Byte} {g : Fin 6} {a : SetAction}

theorem gensetAct_range (bad : unit = 0 ∨ 6 < unit.toNat ∨ 4 < action.toNat) (reply : Reply) :
    gensetAct (unit :: action :: rev) reply s = reply .range [] s := by
  unfold gensetAct
  split
  · next g a row act =>
    exfalso
    change unitRow 6 unit.toNat = some g at row
    change setActionOf action.toNat = some a at act
    rcases bad with h | h | h
    · rw [unitRow_none (.inl ((byte_eq_zero_iff unit).1 h))] at row; cases row
    · rw [unitRow_none (.inr h)] at row; cases row
    · rw [setActionOf_none h] at act; cases act
  · rfl

theorem gensetAct_unit (name : g.val + 1 = unit.toNat) (act : setActionOf action.toNat = some a) (reply : Reply) :
    gensetAct (unit :: action :: rev) reply s =
      if !s.setInstalled g then reply .notInstalled [] s
      else if (a = .start ∨ a = .stop) ∧ ¬s.inRun then reply .mode [] s
      else if s.level7 then reply .busy [] s
      else if stale (expected 2 (unit :: action :: rev)) (s.setRec g).revision then
        reply .staleRevision (bytes16 (s.setRec g).revision) s
      else
        match setAction a g s with
        | some t => reply .ok [] t
        | none => reply .state [] s := by
  have row : unitRow 6 (param (unit :: action :: rev) 0) = some g := unitRow_val name
  have acts : setActionOf (param (unit :: action :: rev) 1) = some a := act
  unfold gensetAct; rw [row, acts] <;> rfl

end

section
variable {s : State} (g : Fin 6)

theorem manualStop_eq : manualStop g s =
    let freed : SetState := if (s.setRec g).outOfService = true then .unavailable else .standby
    match (s.setRec g).state with
    | .queued => some (gsdEvent (moveSet g freed) s)
    | .rest => some (gsdEvent (moveSet g freed) s)
    | .cranking => some (gsdEvent (fun x => serveQueue (moveSet g freed x)) s)
    | .runUp => some (stopSet g none s)
    | .online => some (stopSet g none s)
    | _ => none := by
  unfold manualStop
  cases (s.setRec g).state <;> rfl

theorem outAllowed_iff : s.outAllowed g = true ↔
    ¬((s.setRec g).state ∈ ([.cranking, .runUp, .online, .stopping] : List SetState) ∨ (s.setRec g).running = true) := by
  unfold State.outAllowed
  cases (s.setRec g).state <;> simp

theorem outOfServiceSet_eq : outOfServiceSet g s =
    if (s.setRec g).state ∈ ([.cranking, .runUp, .online, .stopping] : List SetState) ∨ (s.setRec g).running = true then none
    else if (s.setRec g).outOfService = true then some s
    else some (gsdEvent (fun x =>
      let y := modSet g (fun r => { r with
        outOfService := true
        attempts := if r.state = .rest ∨ r.state = .lockout then 0 else r.attempts }) x
      if (s.setRec g).state = .unavailable then notifySet g y else moveSet g .unavailable y) s) := by
  unfold outOfServiceSet
  rw [ite_congr_iff (outAllowed_iff g) rfl rfl]
  refine (ite_not ..).trans (ite_congr_iff Iff.rfl rfl (ite_congr_iff Iff.rfl rfl (congrArg some (gsdEvent_congr ?_))))
  unfold moveOrNotify; dsimp only
  rw [modSet_setRec_self]; rfl

theorem intoServiceSet_eq : intoServiceSet g s =
    if (s.setRec g).outOfService = false then some s
    else some (gsdEvent (fun x =>
      let y := modSet g (fun r => { r with outOfService := false }) x
      if (s.setRec g).state = .unavailable ∧ (s.setRec g).ready = true then moveSet g .standby y
      else notifySet g y) s) := by
  unfold intoServiceSet
  by_cases out : (s.setRec g).outOfService = true
  case neg => rw [if_neg out, if_pos (Bool.eq_false_iff.2 out)]
  rw [if_pos out, if_neg (by rw [out]; decide)]
  refine congrArg some (gsdEvent_congr ?_)
  unfold moveOrNotify; dsimp only
  rw [modSet_setRec_self]; dsimp only
  by_cases h : (s.setRec g).state = .unavailable ∧ (s.setRec g).ready = true
  · rw [if_pos h, if_pos h, h.1, if_neg (by decide)]
  · rw [if_neg h, if_neg h, if_pos rfl]

/-- The mapping reads neither the attempts nor the state of a row (R120). -/
theorem mappedSet_modSet {f : SetRec → SetRec} (running : (f (s.setRec g)).running = (s.setRec g).running)
    (breaker : (f (s.setRec g)).breaker = (s.setRec g).breaker) (ready : (f (s.setRec g)).ready = (s.setRec g).ready)
    (out : (f (s.setRec g)).outOfService = (s.setRec g).outOfService) : (modSet g f s).mappedSet g = s.mappedSet g := by
  have installed : (modSet g f s).setInstalled g = s.setInstalled g := rfl
  unfold State.mappedSet
  rw [modSet_setRec_self, installed]
  dsimp only
  rw [running, breaker, ready, out]

theorem clearLockout_eq : clearLockout g s =
    if (s.setRec g).state = .lockout then
      some (gsdEvent (fun x => moveSet g (s.mappedSet g) (modSet g (fun r => { r with attempts := 0 }) x)) s)
    else none := by
  unfold clearLockout
  refine ite_congr_iff Iff.rfl (congrArg some (gsdEvent_congr ?_)) rfl
  unfold mapSet
  rw [mappedSet_modSet g rfl rfl rfl rfl]

end

section
variable {s : State} {tag unit action : Byte} {rev : List Byte} {g : Fin 6} {a : SetAction}

theorem genset_fits (len : rev.length = 0 ∨ rev.length = 2) :
    (decide ((unit :: action :: rev).length = 2) || decide ((unit :: action :: rev).length = 4)) = true := by
  rcases len with h | h <;> simp [h]

theorem exec_genset_refused {st : Status} {values : List Byte} (len : rev.length = 0 ∨ rev.length = 2)
    (ht : s.takes 0x10 tag (unit :: action :: rev))
    (act : ∀ reply : Reply, gensetAct (unit :: action :: rev) reply s.taken = reply st values s.taken) :
    exec (.genset tag (unit :: action :: rev)) s = .next (s.taken.replied 0x90 tag (st.code :: values)) :=
  request_answered (gensetAct (unit :: action :: rev)) ht (genset_fits len) act rfl

/-- A GENSET that none of the refusals of R117 meets does its action, or is refused for the set's state. -/
theorem exec_genset_acts (len : rev.length = 0 ∨ rev.length = 2) (ht : s.takes 0x10 tag (unit :: action :: rev))
    (name : g.val + 1 = unit.toNat) (act : setActionOf action.toNat = some a) (installed : s.setInstalled g = true)
    (mode : ¬((a = .start ∨ a = .stop) ∧ ¬s.inRun = true)) (free : s.rsc.active.get 6 = none)
    (good : revisionGood rev (s.setRec g).revision) :
    exec (.genset tag (unit :: action :: rev)) s =
      match setAction a g s.taken with
      | some t => .next (cascade (t.replied 0x90 tag [0]))
      | none => .next (s.taken.replied 0x90 tag [8]) := by
  have acts : ∀ reply : Reply, gensetAct (unit :: action :: rev) reply s.taken =
      match setAction a g s.taken with
      | some t => reply .ok [] t
      | none => reply .state [] s.taken := fun reply => by
    have notStale : ¬stale (expected 2 (unit :: action :: rev)) (s.taken.setRec g).revision = true :=
      not_stale_of_good (params := [unit, action]) len good
    have notBusy : ¬s.taken.level7 = true := by
      rw [State.level7, show s.taken.rsc.active.get 6 = none from free]; simp
    have isInstalled : ¬(!s.taken.setInstalled g) = true := by
      rw [show s.taken.setInstalled g = true from installed]; simp
    refine (gensetAct_unit name act reply).trans ?_
    exact (if_neg isInstalled).trans ((if_neg mode).trans ((if_neg notBusy).trans (if_neg notStale)))
  cases result : setAction a g s.taken with
  | none => exact exec_genset_refused (st := .state) len ht fun reply => by rw [acts, result]
  | some t => exact request_cascade (gensetAct (unit :: action :: rev)) ht (genset_fits len) (by rw [acts, result]; rfl)

end

theorem level7_iff (s : State) : s.level7 = true ↔ s.rsc.active.get 6 ≠ none := Option.isSome_iff_ne_none

theorem not_installed_iff (s : State) (g : Fin 6) : (!s.setInstalled g) = true ↔ s.setInstalled g = false := by
  cases s.setInstalled g <;> simp

/-! ### The actions of GENSET (R118, R119) -/

section
variable {s : State} {tag unit : Byte} {rev : List Byte} {g : Fin 6} (len : rev.length = 0 ∨ rev.length = 2)
  (name : g.val + 1 = unit.toNat) (installed : s.setInstalled g = true) (free : s.rsc.active.get 6 = none)
  (good : revisionGood rev (s.setRec g).revision)
include len name installed free good

theorem exec_genset_start (ht : s.takes 0x10 tag (unit :: 0 :: rev)) (run : s.sst.mode = .run) :
    exec (.genset tag (unit :: 0 :: rev)) s =
      if (s.setRec g).state = .standby then .next (cascade ((startSet g .manual s.taken).replied 0x90 tag [0]))
      else .next (s.taken.replied 0x90 tag [8]) := by
  have result : setAction .start g s.taken =
      if (s.setRec g).state = .standby then some (startSet g .manual s.taken) else none := rfl
  rw [exec_genset_acts len ht name rfl installed (fun h => h.2 (decide_eq_true run)) free good, result]
  by_cases standby : (s.setRec g).state = .standby
  · rw [if_pos standby, if_pos standby]
  · rw [if_neg standby, if_neg standby]

theorem exec_genset_stop (ht : s.takes 0x10 tag (unit :: 1 :: rev)) (run : s.sst.mode = .run) :
    exec (.genset tag (unit :: 1 :: rev)) s =
      match manualStop g s.taken with
      | some t => .next (cascade (t.replied 0x90 tag [0]))
      | none => .next (s.taken.replied 0x90 tag [8]) :=
  exec_genset_acts len ht name rfl installed (fun h => h.2 (decide_eq_true run)) free good

theorem exec_genset_out (ht : s.takes 0x10 tag (unit :: 2 :: rev)) :
    exec (.genset tag (unit :: 2 :: rev)) s =
      if (s.setRec g).state ∈ ([.cranking, .runUp, .online, .stopping] : List SetState) ∨ (s.setRec g).running = true then
        .next (s.taken.replied 0x90 tag [8])
      else if (s.setRec g).outOfService = true then .next (s.taken.replied 0x90 tag [0])
      else .next (cascade ((gsdEvent (fun x =>
        let y := modSet g (fun r => { r with
          outOfService := true
          attempts := if r.state = .rest ∨ r.state = .lockout then 0 else r.attempts }) x
        if (s.setRec g).state = .unavailable then notifySet g y else moveSet g .unavailable y) s.taken).replied 0x90 tag [0])) := by
  rw [exec_genset_acts len ht name rfl installed (fun h => absurd h.1 (by decide)) free good, setAction, outOfServiceSet_eq,
    show s.taken.setRec g = s.setRec g from rfl]
  by_cases turns : (s.setRec g).state ∈ ([.cranking, .runUp, .online, .stopping] : List SetState) ∨
      (s.setRec g).running = true
  · rw [if_pos turns, if_pos turns]
  · rw [if_neg turns, if_neg turns]
    by_cases already : (s.setRec g).outOfService = true
    · rw [if_pos already, if_pos already]
      exact congrArg Host.Outcome.next (cascade_of_idle ht.1.2)
    · rw [if_neg already, if_neg already]

theorem exec_genset_in (ht : s.takes 0x10 tag (unit :: 3 :: rev)) :
    exec (.genset tag (unit :: 3 :: rev)) s =
      if (s.setRec g).outOfService = false then .next (s.taken.replied 0x90 tag [0])
      else .next (cascade ((gsdEvent (fun x =>
        let y := modSet g (fun r => { r with outOfService := false }) x
        if (s.setRec g).state = .unavailable ∧ (s.setRec g).ready = true then moveSet g .standby y
        else notifySet g y) s.taken).replied 0x90 tag [0])) := by
  rw [exec_genset_acts len ht name rfl installed (fun h => absurd h.1 (by decide)) free good, setAction, intoServiceSet_eq,
    show s.taken.setRec g = s.setRec g from rfl]
  by_cases already : (s.setRec g).outOfService = false
  · rw [if_pos already, if_pos already]
    exact congrArg Host.Outcome.next (cascade_of_idle ht.1.2)
  · rw [if_neg already, if_neg already]

theorem exec_genset_clearLockout (ht : s.takes 0x10 tag (unit :: 4 :: rev)) :
    exec (.genset tag (unit :: 4 :: rev)) s =
      if (s.setRec g).state = .lockout then .next (cascade ((gsdEvent (fun x => moveSet g (s.mappedSet g)
        (modSet g (fun r => { r with attempts := 0 }) x)) s.taken).replied 0x90 tag [0]))
      else .next (s.taken.replied 0x90 tag [8]) := by
  rw [exec_genset_acts len ht name rfl installed (fun h => absurd h.1 (by decide)) free good, setAction, clearLockout_eq,
    show s.taken.setRec g = s.setRec g from rfl]
  by_cases locked : (s.setRec g).state = .lockout
  · rw [if_pos locked, if_pos locked]; rfl
  · rw [if_neg locked, if_neg locked]

end

/-! ### RUNTIME (R112) -/

section
variable {s : State} {tag unit v3 v2 v1 v0 : Byte} {rev : List Byte} {g : Fin 6}

theorem exec_runtime {t : State} {st : Status} {values : List Byte} (len : rev.length = 0 ∨ rev.length = 2)
    (ht : s.takes 0x13 tag (unit :: v3 :: v2 :: v1 :: v0 :: rev))
    (act : ∀ reply : Reply, runtimeAct (unit :: v3 :: v2 :: v1 :: v0 :: rev) reply s.taken = reply st values t)
    (idle : t.handovers = s.handovers) :
    exec (.runtime tag (unit :: v3 :: v2 :: v1 :: v0 :: rev)) s = .next (t.replied 0x93 tag (st.code :: values)) :=
  request_answered (runtimeAct (unit :: v3 :: v2 :: v1 :: v0 :: rev)) ht
    (by rcases len with h | h <;> simp [h]) act idle

theorem runtimeAct_unit (name : g.val + 1 = unit.toNat) (reply : Reply) :
    runtimeAct (unit :: v3 :: v2 :: v1 :: v0 :: rev) reply s =
      if !s.setInstalled g then reply .notInstalled [] s
      else if s.level7 then reply .busy [] s
      else if stale (expected 5 (unit :: v3 :: v2 :: v1 :: v0 :: rev)) (s.setRec g).revision then
        reply .staleRevision (bytes16 (s.setRec g).revision) s
      else reply .ok [] (setRunSeconds g (word32 v3 v2 v1 v0) s) := by
  have row : unitRow 6 (param (unit :: v3 :: v2 :: v1 :: v0 :: rev) 0) = some g := unitRow_val name
  unfold runtimeAct; rw [row]; rfl

end

/-- Settles O47: GENSET, its refusals and its five actions; RUNTIME. -/
theorem gensetAndRuntimeTables : Obligations.GensetAndRuntimeTables := by
  constructor
  case left =>
    intro s tag unit action rev len body ht refused done
    refine ⟨fun bad => ?_, fun g name known => ?_⟩
    · exact exec_genset_refused (st := .range) len ht (gensetAct_range (s := s.taken) bad)
    · intro r
      obtain ⟨a, act, byHand⟩ := setActionOf_of_le known
      have unitAct := gensetAct_unit (s := s.taken) (rev := rev) name act
      refine ⟨fun absent => ?_, fun installed byHand' mode => ?_, fun installed allowed => ?_⟩
      · exact exec_genset_refused (st := .notInstalled) len ht fun reply =>
          (unitAct reply).trans (if_pos ((not_installed_iff _ g).2 absent))
      · have present : ¬(!s.taken.setInstalled g) = true := fun h =>
          Bool.false_ne_true (((not_installed_iff _ g).1 h).symm.trans installed)
        exact exec_genset_refused (st := .mode) len ht fun reply => (unitAct reply).trans
          ((if_neg present).trans (if_pos ⟨byHand.2 byHand', fun h => mode (of_decide_eq_true h)⟩))
      · have present : ¬(!s.taken.setInstalled g) = true := fun h =>
          Bool.false_ne_true (((not_installed_iff _ g).1 h).symm.trans installed)
        have inMode : ¬((a = .start ∨ a = .stop) ∧ ¬s.inRun = true) := fun ⟨hand, off⟩ =>
          allowed.elim (fun h => absurd (byHand.1 hand) (by omega)) fun run => off (decide_eq_true run)
        refine ⟨fun full => ?_, fun free other => ?_, fun free good => ?_⟩
        · exact exec_genset_refused (st := .busy) len ht fun reply => (unitAct reply).trans
            ((if_neg present).trans ((if_neg inMode).trans (if_pos ((level7_iff _).2 full))))
        · exact exec_genset_refused (st := .staleRevision) len ht fun reply => (unitAct reply).trans
            ((if_neg present).trans ((if_neg inMode).trans ((if_neg (mt (level7_iff _).1 (Classical.not_not.2 free))).trans
              (if_pos (stale_of_other (params := [unit, action]) len other)))))
        · clear act unitAct byHand inMode
          have byHand : action.toNat ≤ 1 → s.sst.mode = .run := fun h => allowed.resolve_left (by omega)
          refine ⟨?_, ?_, ?_, ?_, ?_⟩
          · rintro rfl
            exact exec_genset_start len name installed free good ht (byHand (by decide))
          · rintro rfl
            refine (exec_genset_stop len name installed free good ht (byHand (by decide))).trans ?_
            rw [manualStop_eq, show s.taken.setRec g = r from rfl]
            cases r.state <;> rfl
          · rintro rfl
            exact exec_genset_out len name installed free good ht
          · rintro rfl
            exact exec_genset_in len name installed free good ht
          · rintro rfl
            exact exec_genset_clearLockout len name installed free good ht
  intro s tag unit v3 v2 v1 v0 rev len body ht refused
  refine ⟨fun bad => ?_, fun g name => ?_⟩
  · exact exec_runtime (st := .range) len ht (fun reply => by
      have row : unitRow 6 (param body 0) = none := unitRow_none (bad.imp (byte_eq_zero_iff unit).1 id)
      unfold runtimeAct; rw [row]) rfl
  · intro r
    have unitAct := runtimeAct_unit (s := s.taken) (v3 := v3) (v2 := v2) (v1 := v1) (v0 := v0) (rev := rev) name
    refine ⟨fun absent => ?_, fun installed full => ?_, fun installed free other => ?_, fun installed free good => ?_⟩
    · exact exec_runtime (st := .notInstalled) len ht (fun reply =>
        (unitAct reply).trans (if_pos ((not_installed_iff _ g).2 absent))) rfl
    all_goals have present : ¬(!s.taken.setInstalled g) = true := fun h =>
        Bool.false_ne_true (((not_installed_iff _ g).1 h).symm.trans installed)
    · exact exec_runtime (st := .busy) len ht (fun reply => (unitAct reply).trans
        ((if_neg present).trans (if_pos ((level7_iff _).2 full)))) rfl
    · exact exec_runtime (st := .staleRevision) len ht (fun reply => (unitAct reply).trans
        ((if_neg present).trans ((if_neg (mt (level7_iff _).1 (Classical.not_not.2 free))).trans
          (if_pos (stale_of_other (params := [unit, v3, v2, v1, v0]) len other))))) rfl
    · exact exec_runtime (st := .ok) len ht (fun reply => (unitAct reply).trans
        ((if_neg present).trans ((if_neg (mt (level7_iff _).1 (Classical.not_not.2 free))).trans
          (if_neg (not_stale_of_good (params := [unit, v3, v2, v1, v0]) len good))))) rfl

end Sys2Proof.Machine

/-!
SUPPORT. GSD: the inputs and the timers of a set (R96, R102 to R112, R120).
-/
namespace Sys2Proof.Machine

/-! ### A set that is not installed (R96) -/

theorem holdUnavailable_eq {g : Fin 6} {st : SetState} {s : State} (state : (s.setRec g).state = st) :
    holdUnavailable g s = heldUnavailable g st s := by
  subst state; rfl

theorem gsdEvent_absent {f : Fin 6 → State → State} {g : Fin 6} {st : SetState} {s : State}
    (absent : s.setInstalled g = false) (state : (s.setRec g).state = st) :
    gsdEvent (whileInstalled f g) s = gsdEvent (heldUnavailable g st) s :=
  gsdEvent_congr ((whileInstalled_absent f g s absent).trans (holdUnavailable_eq state))

theorem gsdEvent_installed {f : Fin 6 → State → State} {f' : State → State} {g : Fin 6} {s : State}
    (installed : s.setInstalled g = true) (acts : f g s = f' s) : gsdEvent (whileInstalled f g) s = gsdEvent f' s :=
  gsdEvent_congr ((whileInstalled_installed f g s installed).trans acts)

/-! ### An input of a set (R102, R105, R107, R109 to R111) -/

/-- What the change of an input does, with `f` its act in RUN. -/
theorem setInput_table {c : Instr} {changed : Prop} {now : SetRec → Bool} {level : Bool} {put : SetRec → SetRec}
    {inRun : Fin 6 → State → State} {f : State → State} {s : State} {g : Fin 6} (calm : s.calm)
    (runs : exec c s = .next (setInput now level put inRun g s)) (changes : changed ↔ now (s.setRec g) ≠ level)
    (state : (put (s.setRec g)).state = (s.setRec g).state)
    (acts : inRun g (modSet g put s) = f (modSet g put s)) :
    (¬changed → exec c s = .next s) ∧
    (changed → s.setInstalled g = false → exec c s =
      .next (cascade (gsdEvent (heldUnavailable g (s.setRec g).state) (modSet g put s)))) ∧
    (changed → s.setInstalled g = false → (s.setRec g).state = .unavailable → exec c s = .next (modSet g put s)) ∧
    (changed → s.setInstalled g = true → s.sst.mode ≠ .run → exec c s =
      .next (cascade (gsdEvent (fun x => moveSet g (x.mappedSet g) x) (modSet g put s)))) ∧
    (changed → s.setInstalled g = true → s.sst.mode = .run → exec c s =
      .next (cascade (gsdEvent f (modSet g put s)))) := by
  obtain ⟨high, idle⟩ := calm
  have rowState : ((modSet g put s).setRec g).state = (s.setRec g).state := by rw [modSet_setRec_self, state]
  have event : changed → exec c s = .next (cascade (gsdEvent
      (whileInstalled (if s.inRun then inRun else mapSet) g) (modSet g put s))) := fun h => by
    rw [runs, setInput, if_neg (changes.1 h), takeInput_high _ _ _ high]; rfl
  have absent : changed → s.setInstalled g = false → exec c s =
      .next (cascade (gsdEvent (heldUnavailable g (s.setRec g).state) (modSet g put s))) := fun h no =>
    (event h).trans (congrArg (fun x => Host.Outcome.next (cascade x)) (gsdEvent_absent no rowState))
  refine ⟨fun h => ?_, absent, fun h no unavailable => ?_, fun h yes off => ?_, fun h yes run => ?_⟩
  · rw [runs, setInput, if_pos (Classical.not_not.1 (mt changes.2 h))]
  · refine (absent h no).trans (congrArg Host.Outcome.next ?_)
    rw [unavailable, gsdEvent_of_eq (heldUnavailable g .unavailable) (modSet g put s) rfl]
    exact cascade_of_idle idle
  · refine (event h).trans (congrArg (fun x => Host.Outcome.next (cascade x)) (gsdEvent_installed yes ?_))
    have out : ¬s.inRun = true := fun h => off (of_decide_eq_true h)
    rw [if_neg out]; rfl
  · refine (event h).trans (congrArg (fun x => Host.Outcome.next (cascade x)) (gsdEvent_installed yes ?_))
    have inside : s.inRun = true := decide_eq_true run
    rw [if_pos inside]; exact acts

theorem moveSet_breaker (g : Fin 6) (new : SetState) (s : State) :
    ((moveSet g new s).setRec g).breaker = (s.setRec g).breaker :=
  congrArg (fun o => o.2.1) ((Quiet.moveSet g new s).sets g)

theorem enterRunUp_eq (g : Fin 6) (s : State) :
    enterRunUp g s = if (s.setRec g).breaker = true then moveSet g .online (moveSet g .runUp s) else moveSet g .runUp s := by
  unfold enterRunUp; dsimp only
  rw [moveSet_breaker]

theorem atRest_eq (r : SetRec) :
    r.atRest = if r.ready = true ∧ r.outOfService = false then .standby else .unavailable := by
  unfold SetRec.atRest
  exact ite_congr_iff (by simp) rfl rfl

theorem restOrLockout_eq (g : Fin 6) (s : State) :
    restOrLockout g s = if (s.setRec g).attempts < s.sysNat Sys.maxAttempts then moveSet g .rest s
      else emit (.raise 7 (g.val + 1)) (moveSet g .lockout s) := rfl

/-- Settles O48: the table of the mapping, and the six inputs. -/
theorem setInputsFollowTheirTables : Obligations.SetInputsFollowTheirTables := by
  refine ⟨fun s g => ?_, fun s g calm => ?_⟩
  · unfold State.mappedSet
    cases s.setInstalled g <;> simp
  · intro r acts atRest toRunUp trip
    refine ⟨?_, ?_, ?_, ?_, ?_, ?_⟩
    · refine setInput_table (inRun := runningRisen) calm rfl (by simp [r]) rfl ?_
      unfold runningRisen
      rw [enterRunUp_eq, modSet_setRec_self]
      dsimp only [r, toRunUp]
      cases (s.setRec g).state <;> rfl
    · refine setInput_table (inRun := runningFallen) calm rfl (by simp [r]) rfl ?_
      unfold runningFallen
      rw [modSet_setRec_self]
      dsimp only [r, atRest]
      rw [show ({ s.setRec g with running := false } : SetRec).atRest = (s.setRec g).atRest from rfl, atRest_eq]
      cases (s.setRec g).state with
      | stopping =>
        dsimp only
        rw [restOrLockout_eq, modSet_setRec_self, modSet_setRec_self]
        cases retry : (s.setRec g).retry with
        | false => rfl
        | true => rfl
      | _ => rfl
    · refine setInput_table (inRun := setBreakerRisen) calm rfl (by simp [r]) rfl ?_
      unfold setBreakerRisen
      rw [modSet_setRec_self]
      exact ite_congr_iff (by simp [r]) rfl rfl
    · refine setInput_table (inRun := setBreakerFallen) calm rfl (by simp [r]) rfl ?_
      unfold setBreakerFallen
      rw [modSet_setRec_self]
      exact ite_congr_iff (by simp [r]) rfl rfl
    · refine setInput_table (inRun := readyRisen) calm rfl (by simp [r]) rfl ?_
      unfold readyRisen
      rw [modSet_setRec_self]
      exact ite_congr_iff (by simp [r]) rfl rfl
    · refine setInput_table (inRun := readyFallen) calm rfl (by simp [r]) rfl ?_
      unfold readyFallen
      rw [modSet_setRec_self]
      dsimp only [r]
      cases (s.setRec g).state <;> rfl

/-! ### The timers of a set (R98, R112) -/

theorem stood_eq (d : Nat) (r : SetRec) : r.stood d = onlineCounted d r := rfl

theorem advance_row (d : Nat) (s : State) (g : Fin 6) :
    (advance d s).setRec g = onlineCounted d (if (s.setRec g).running = true ∧ s.setInstalled g = true then
      (s.setRec g).ran d else s.setRec g) := by
  have row : (advance d s).setRec g = (if (s.setRec g).running && s.setInstalled g then (s.setRec g).ran d
      else s.setRec g).stood d := Tab.get_mapIdx ..
  rw [row, stood_eq, ite_congr_iff (Bool.and_eq_true_iff) rfl rfl]

/-- Time that passes leaves the state, the attempts and the marks of a set. -/
theorem advanceTo_keeps (due : Tick) (s : State) (g : Fin 6) :
    ((advanceTo due s).setRec g).state = (s.setRec g).state ∧
    ((advanceTo due s).setRec g).attempts = (s.setRec g).attempts := by
  unfold advanceTo
  split
  · exact ⟨rfl, rfl⟩
  · rw [advance_row]
    split <;> exact ⟨rfl, rfl⟩

theorem advanceTo_installed (due : Tick) (s : State) (g : Fin 6) :
    (advanceTo due s).setInstalled g = s.setInstalled g := by
  unfold advanceTo; split <;> rfl

theorem advanceTo_sysNat (due : Tick) (s : State) (f : Fin 38) : (advanceTo due s).sysNat f = s.sysNat f := by
  unfold advanceTo; split <;> rfl

theorem advanceTo_handovers (due : Tick) (s : State) : (advanceTo due s).handovers = s.handovers := by
  unfold advanceTo; split <;> rfl

/-- What the expiry of a timer of a set does, with `f` its act. -/
theorem setTimer_table {c : Instr} {st : SetState} {timer : Fin 6 → State → State} {f : State → State} {s : State}
    {g : Fin 6} (calm : s.calm) (runs : exec c s = .next (setTimer st timer g s))
    (acts : ∀ due, timer g (advanceTo due s) = f (advanceTo due s)) :
    ((s.setRec g).state ≠ st ∨ (s.setRec g).timer = none → exec c s = .next s) ∧
    ∀ due, (s.setRec g).state = st → (s.setRec g).timer = some due →
      exec c s = .next (cascade (gsdEvent (if s.setInstalled g = true then f else heldUnavailable g st)
        (advanceTo due s))) := by
  obtain ⟨high, idle⟩ := calm
  rw [runs]
  refine ⟨fun h => congrArg Host.Outcome.next ?_, fun due state runs => congrArg Host.Outcome.next ?_⟩
  · unfold setTimer
    split
    · next here =>
      rw [takeEvent_high _ _ high, h.resolve_left (Classical.not_not.2 here), expire_idle]
      exact cascade_of_idle idle
    · rfl
  · have installed := advanceTo_installed due s g
    rw [setTimer, if_pos state, takeEvent_high _ _ high, runs, expire_running]
    refine congrArg cascade ?_
    by_cases here : s.setInstalled g = true
    · rw [if_pos here]
      exact gsdEvent_installed (installed.trans here) (acts due)
    · rw [if_neg here]
      exact gsdEvent_absent (installed.trans (Bool.eq_false_iff.2 here)) ((advanceTo_keeps due s g).1.trans state)

/-- Settles O49: the time that passes; the four timers, the min-run timer and RUN_SECOND. -/
theorem setTimersExpire : Obligations.SetTimersExpire := by
  refine ⟨fun s d => ⟨fun g => ?_, rfl⟩, fun s g calm => ?_⟩
  · exact advance_row d s g
  · intro r raiseFail acts
    refine ⟨?_, ?_, ?_, ?_, fun absent => ?_, fun due runs installed => ?_, fun due runs absent => ?_, fun still => ?_,
      fun installed running => ⟨?_, fun below => ?_⟩⟩
    · refine setTimer_table (timer := crankExpired) calm rfl fun due => ?_
      unfold crankExpired
      rw [restOrLockout_eq, modSet_setRec_self]
      refine congrArg serveQueue (ite_congr_iff ?_ rfl rfl)
      rw [show (modSet g _ (advanceTo due s)).sysNat Sys.maxAttempts = (advanceTo due s).sysNat Sys.maxAttempts from rfl,
        advanceTo_sysNat, (advanceTo_keeps due s g).2]
    · exact setTimer_table (timer := syncExpired) calm rfl fun _ => rfl
    · exact setTimer_table (timer := restExpired) calm rfl fun _ => rfl
    · exact setTimer_table (timer := stopExpired) calm rfl fun _ => rfl
    · show Host.Outcome.next (takeEvent (expire r.minRunTimer _) s) = _
      rw [absent, takeEvent_high _ _ calm.1, expire_idle]
      exact congrArg Host.Outcome.next (cascade_of_idle calm.2)
    · show Host.Outcome.next (takeEvent (expire r.minRunTimer _) s) = _
      rw [runs, takeEvent_high _ _ calm.1, expire_running,
        gsdEvent_installed (f := minRunEnded) ((advanceTo_installed due s g).trans installed) rfl]
      exact congrArg Host.Outcome.next (cascade_of_idle ((advanceTo_handovers due s).trans calm.2))
    · show Host.Outcome.next (takeEvent (expire r.minRunTimer _) s) = _
      rw [runs, takeEvent_high _ _ calm.1, expire_running,
        gsdEvent_absent (f := minRunEnded) ((advanceTo_installed due s g).trans absent) (advanceTo_keeps due s g).1]
      rfl
    · have skips : ¬(s.setInstalled g && r.running) = true := by
        rcases still with h | h <;> simp [h]
      show Host.Outcome.next (takeEvent (runSecondDue g) s) = _
      rw [takeEvent_high _ _ calm.1, runSecondDue, if_neg skips]
      exact congrArg Host.Outcome.next (cascade_of_idle calm.2)
    · have counts : (s.setInstalled g && r.running) = true := by simp [installed, running]
      show Host.Outcome.next (takeEvent (runSecondDue g) s) = _
      rw [takeEvent_high _ _ calm.1, runSecondDue, if_pos counts]
      exact congrArg Host.Outcome.next (cascade_of_idle calm.2)
    · have whole : r.accumulator + (1000 - r.accumulator) = 1000 := by omega
      have ran : r.ran (1000 - r.accumulator) =
          { r with accumulator := 0, runSeconds := r.runSeconds + 1, revision := r.revision + 1 } := by
        unfold SetRec.ran; rw [whole] <;> rfl
      rw [← ran]
      exact (advance_row _ s g).trans (congrArg _ (if_pos ⟨running, installed⟩))

end Sys2Proof.Machine

/-!
SUPPORT. FDC: the move of a feeder, trips and closes, RESTORE_NEXT and FEEDER (R125 to R128, R131, R135 to R140).
-/
namespace Sys2Proof.Machine

/-! ### The move of a feeder (R126, R127, R135) -/

/-- A notice is queued beside the registers of FDC. -/
theorem notify_withFdc (k : NoticeKind) (n : Nat) (vs : List Word) (d : Fdc) (s : State) :
    notify k n vs { s with fdc := d } = { notify k n vs s with fdc := d } := by
  unfold notify; dsimp only; split <;> rfl

/-- The FEEDER notice of a row (R127). -/
def feederNotice (f : Fin 16) (r : FeederRec) (s : State) : State :=
  notify .feeder (f.val + 1)
    [sField r.state.code, optField (r.origin.map Origin.code), optField r.preShed, sField (boolInt r.outOfService)] s

/-- A move to another state: the notice, the place in the restore queue and the row. -/
theorem moveFeeder_changed {f : Fin 16} {new : FeederState} {s : State} (changes : (s.feederRec f).state ≠ new) :
    moveFeeder f new s = { feederNotice f (s.enterFeeder new (s.feederRec f)) s with
      fdc := { s.fdc with
        queue := queuePlace f (s.feederRec f).state new s.fdc.queue
        feeders := s.fdc.feeders.put f (s.enterFeeder new (s.feederRec f)) } } := by
  rw [moveFeeder_of_ne changes, notifyFeeder, modFeeder_feederRec_self]
  exact notify_withFdc .feeder (f.val + 1) _ { s.fdc with
    queue := queuePlace f (s.feederRec f).state new s.fdc.queue
    feeders := s.fdc.feeders.put f (s.enterFeeder new (s.feederRec f)) } s

theorem feederTimerFor_eq (s : State) (new : FeederState) :
    s.feederTimerFor new = if s.sst.mode = .run ∧ (new = .tripping ∨ new = .closing) then
      some (s.dueIn (s.sysNat Sys.breakerTime)) else none :=
  ite_congr_iff (by simp [State.inRun]) rfl rfl

/-! ### Revisions (R125) -/

theorem feederSameRow_iff (a b : FeederRec) : a.sameRow b = true ↔
    a.state = b.state ∧ a.origin = b.origin ∧ a.preShed = b.preShed ∧ a.outOfService = b.outOfService := by
  simp only [FeederRec.sameRow, Bool.and_eq_true, decide_eq_true_eq, and_assoc]

/-- The row of a feeder after an event at FDC. -/
theorem fdcEvent_row (e : State → State) (s : State) (f : Fin 16) :
    (fdcEvent e s).feederRec f = if (s.feederRec f).sameRow ((e s).feederRec f) = true then (e s).feederRec f
      else { (e s).feederRec f with revision := ((e s).feederRec f).revision + 1 } := Tab.get_mapIdx ..

theorem fdcEvent_congr {e e' : State → State} {s : State} (h : e s = e' s) : fdcEvent e s = fdcEvent e' s := by
  unfold fdcEvent; rw [h]

/-! ### Trips and closes (R128, R131) -/

section
variable {s : State} {f : Fin 16} (o : Origin)

theorem tripFeeder_taken (run : s.sst.mode = .run) (closed : (s.feederRec f).state = .closed) :
    tripFeeder f o s = fdcEvent (beginTrip f o) s := if_pos (by simp [State.inRun, run, closed])

theorem tripFeeder_refused (other : (s.feederRec f).state ≠ .closed) : tripFeeder f o s = match o with
    | .chain n => emit (.chainUnitEnd n (.feeder f) false) s
    | _ => s := by
  have refused : ¬(s.inRun && decide ((s.feederRec f).state = .closed)) = true := by simp [other]
  refine (if_neg refused).trans ?_
  cases o <;> rfl

theorem closeFeeder_taken (run : s.sst.mode = .run)
    (opened : (s.feederRec f).state = .openShed ∨ (s.feederRec f).state = .openExt) :
    closeFeeder f o s =
      fdcEvent (fun x => moveFeeder f .closing (modFeeder f (fun r => { r with origin := some o }) x)) s :=
  if_pos (by simpa [State.inRun, run] using opened)

theorem closeFeeder_refused (notShed : (s.feederRec f).state ≠ .openShed) (notExt : (s.feederRec f).state ≠ .openExt) :
    closeFeeder f o s = match o with
      | .chain n => emit (.chainUnitEnd n (.feeder f) false) s
      | .response c => emit (.complete .fdc c .failed) s
      | .blackstart => emit (.bssCloseEnd f false) s
      | _ => s := by
  have refused : ¬(s.inRun && (decide ((s.feederRec f).state = .openShed) || decide ((s.feederRec f).state = .openExt))) = true := by
    simp [notShed, notExt]
  refine (if_neg refused).trans ?_
  cases o <;> rfl

end

theorem restoreNext_head {c : Fin 24} {s : State} {f : Fin 16} {rest : List (Fin 16)} (queue : s.fdc.queue = f :: rest) :
    restoreNext c s = if s.need f + s.sys Sys.restoreMargin ≤ s.headroom then closeFeeder f (.response c) s
      else emit (.complete .fdc c .none) s := by
  unfold restoreNext; rw [queue]
  exact ite_congr_iff decide_eq_true_iff rfl rfl

/-! ### FEEDER (R138 to R140) -/

theorem feederActionOf_of_le {k : Nat} (h : k ≤ 3) :
    ∃ a, feederActionOf k = some a ∧ ((a = .trip ∨ a = .close) ↔ k ≤ 1) := by
  obtain rfl | rfl | rfl | rfl : k = 0 ∨ k = 1 ∨ k = 2 ∨ k = 3 := by omega
  · exact ⟨.trip, rfl, by decide⟩
  · exact ⟨.close, rfl, by decide⟩
  · exact ⟨.takeOut, rfl, by decide⟩
  · exact ⟨.bringIn, rfl, by decide⟩

theorem feederActionOf_none {k : Nat} (h : 3 < k) : feederActionOf k = none := by
  unfold feederActionOf
  split <;> first | omega | rfl

section
variable {s : State} {unit action : Byte} {rev : List Byte} {f : Fin 16} {a : FeederAction}

theorem feederAct_range (bad : unit = 0 ∨ 16 < unit.toNat ∨ 3 < action.toNat) (reply : Reply) :
    feederAct (unit :: action :: rev) reply s = reply .range [] s := by
  unfold feederAct
  split
  · next f a row act =>
    exfalso
    change unitRow 16 unit.toNat = some f at row
    change feederActionOf action.toNat = some a at act
    rcases bad with h | h | h
    · rw [unitRow_none (.inl ((byte_eq_zero_iff unit).1 h))] at row; cases row
    · rw [unitRow_none (.inr h)] at row; cases row
    · rw [feederActionOf_none h] at act; cases act
  · rfl

theorem feederAct_unit (name : f.val + 1 = unit.toNat) (act : feederActionOf action.toNat = some a) (reply : Reply) :
    feederAct (unit :: action :: rev) reply s =
      if !s.feederInstalled f then reply .notInstalled [] s
      else if (a = .trip ∨ a = .close) ∧ ¬s.inRun then reply .mode [] s
      else if s.level7 then reply .busy [] s
      else if stale (expected 2 (unit :: action :: rev)) (s.feederRec f).revision then
        reply .staleRevision (bytes16 (s.feederRec f).revision) s
      else
        match feederAction a f s with
        | some t => reply .ok [] t
        | none => reply .state [] s := by
  have row : unitRow 16 (param (unit :: action :: rev) 0) = some f := unitRow_val name
  have acts : feederActionOf (param (unit :: action :: rev) 1) = some a := act
  unfold feederAct; rw [row, acts] <;> rfl

end

section
variable {s : State} {tag unit action : Byte} {rev : List Byte} {f : Fin 16} {a : FeederAction}

theorem exec_feeder {t : State} {st : Status} {values : List Byte} (len : rev.length = 0 ∨ rev.length = 2)
    (ht : s.takes 0x11 tag (unit :: action :: rev))
    (act : ∀ reply : Reply, feederAct (unit :: action :: rev) reply s.taken = reply st values t)
    (idle : t.handovers = s.handovers) :
    exec (.feeder tag (unit :: action :: rev)) s = .next (t.replied 0x91 tag (st.code :: values)) :=
  request_answered (feederAct (unit :: action :: rev)) ht (genset_fits len) act idle

/-- A FEEDER that none of the refusals of R138 meets does its action, or is refused for the feeder's state. -/
theorem exec_feeder_acts (len : rev.length = 0 ∨ rev.length = 2) (ht : s.takes 0x11 tag (unit :: action :: rev))
    (name : f.val + 1 = unit.toNat) (act : feederActionOf action.toNat = some a) (installed : s.feederInstalled f = true)
    (mode : ¬((a = .trip ∨ a = .close) ∧ ¬s.inRun = true)) (free : s.rsc.active.get 6 = none)
    (good : revisionGood rev (s.feederRec f).revision)
    (idle : ∀ t, feederAction a f s.taken = some t → t.handovers = s.handovers) :
    exec (.feeder tag (unit :: action :: rev)) s =
      match feederAction a f s.taken with
      | some t => .next (t.replied 0x91 tag [0])
      | none => .next (s.taken.replied 0x91 tag [8]) := by
  have acts : ∀ reply : Reply, feederAct (unit :: action :: rev) reply s.taken =
      match feederAction a f s.taken with
      | some t => reply .ok [] t
      | none => reply .state [] s.taken := fun reply => by
    have notStale : ¬stale (expected 2 (unit :: action :: rev)) (s.taken.feederRec f).revision = true :=
      not_stale_of_good (params := [unit, action]) len good
    have notBusy : ¬s.taken.level7 = true := mt (level7_iff _).1 (Classical.not_not.2 free)
    have isInstalled : ¬(!s.taken.feederInstalled f) = true := by
      rw [show s.taken.feederInstalled f = true from installed]; simp
    refine (feederAct_unit name act reply).trans ?_
    exact (if_neg isInstalled).trans ((if_neg mode).trans ((if_neg notBusy).trans (if_neg notStale)))
  cases result : feederAction a f s.taken with
  | none => exact exec_feeder (st := .state) len ht (fun reply => by rw [acts, result]) rfl
  | some t => exact exec_feeder (st := .ok) len ht (fun reply => by rw [acts, result]) (idle t result)

end

/-- The host's trip hands nothing over. -/
theorem tripFeeder_host_handovers {s : State} {f : Fin 16} (run : s.sst.mode = .run)
    (closed : (s.feederRec f).state = .closed) : (tripFeeder f .host s).handovers = s.handovers := by
  rw [tripFeeder_taken .host run closed]
  exact (Walk.fdcEvent (S := [.fdc]) (by decide) _ s (Walk.beginTrip (by decide) f .host s)).handovers_eq (by decide)

theorem closeFeeder_host_handovers {s : State} {f : Fin 16} (run : s.sst.mode = .run)
    (opened : (s.feederRec f).state = .openShed ∨ (s.feederRec f).state = .openExt) :
    (closeFeeder f .host s).handovers = s.handovers := by
  rw [closeFeeder_taken .host run opened]
  exact (Walk.fdcEvent (S := [.fdc]) (by decide) _ s
    ((Walk.modFeeder (by decide) f _ s).trans (Walk.moveFeeder (by decide) f .closing _))).handovers_eq (by decide)

theorem put_get {n : Nat} {α : Type} (t : Tab n α) (i : Fin n) : t.put i (t.get i) = t :=
  Tab.ext_get fun j => by
    rw [Tab.get_put]
    split
    · next h => rw [h]
    · rfl

theorem modFeeder_same {f : Fin 16} {c : FeederRec → FeederRec} {s : State} (same : c (s.feederRec f) = s.feederRec f) :
    modFeeder f c s = s := by
  unfold modFeeder Tab.modify
  rw [show c (s.fdc.feeders.get f) = s.fdc.feeders.get f from same, put_get]

/-- A feeder that becomes CLOSED has lost its pre-shed load by its move, so that the mapping is the move. -/
theorem mapFeeder_of_moved {f : Fin 16} {s : State} (changes : (s.feederRec f).state ≠ s.mappedFeeder f) :
    mapFeeder f s = moveFeeder f (s.mappedFeeder f) s := by
  unfold mapFeeder; dsimp only
  split
  · next closed =>
    refine modFeeder_same ?_
    have row : (moveFeeder f (s.mappedFeeder f) s).feederRec f = s.enterFeeder (s.mappedFeeder f) (s.feederRec f) := by
      rw [moveFeeder_self, if_neg changes]
    rw [row] at closed ⊢
    have mapped : s.mappedFeeder f = .closed := closed
    unfold State.enterFeeder
    rw [mapped]; rfl
  · rfl

/-- IN of a feeder that is installed and out of service (R140, R143). -/
theorem feederIn_eq {f : Fin 16} {s : State} (installed : s.feederInstalled f = true)
    (out : (s.feederRec f).state = .outOfService) :
    feederIn f s = fdcEvent (fun x => moveFeeder f (if (s.feederRec f).breaker = true then .closed else .openExt)
      (modFeeder f (fun r => { r with outOfService := false }) x)) s := by
  refine fdcEvent_congr ?_
  generalize state : modFeeder f (fun r => { r with outOfService := false }) s = x
  have row : x.feederRec f = { s.feederRec f with outOfService := false } := by
    rw [← state, modFeeder_feederRec_self]
  have mapped : x.mappedFeeder f = if (s.feederRec f).breaker = true then .closed else .openExt := by
    have here : x.feederInstalled f = true := by rw [← state]; exact installed
    unfold State.mappedFeeder
    rw [row, here]; rfl
  rw [← mapped]
  refine mapFeeder_of_moved ?_
  rw [row, mapped]; dsimp only
  rw [out]
  split <;> decide

/-! ### The actions of FEEDER (R139, R140) -/

section
variable {s : State} {tag unit : Byte} {rev : List Byte} {f : Fin 16} (len : rev.length = 0 ∨ rev.length = 2)
  (name : f.val + 1 = unit.toNat) (installed : s.feederInstalled f = true) (free : s.rsc.active.get 6 = none)
  (good : revisionGood rev (s.feederRec f).revision)
include len name installed free good

theorem exec_feeder_trip (ht : s.takes 0x11 tag (unit :: 0 :: rev)) (run : s.sst.mode = .run) :
    exec (.feeder tag (unit :: 0 :: rev)) s =
      if (s.feederRec f).state = .closed then .next ((tripFeeder f .host s.taken).replied 0x91 tag [0])
      else .next (s.taken.replied 0x91 tag [8]) := by
  have result : feederAction .trip f s.taken =
      if (s.feederRec f).state = .closed then some (tripFeeder f .host s.taken) else none := rfl
  by_cases closed : (s.feederRec f).state = .closed
  · rw [if_pos closed] at result ⊢
    rw [exec_feeder_acts len ht name rfl installed (fun h => h.2 (decide_eq_true run)) free good, result]
    intro t same
    rw [result] at same; cases same
    exact tripFeeder_host_handovers (s := s.taken) run closed
  · rw [if_neg closed] at result ⊢
    rw [exec_feeder_acts len ht name rfl installed (fun h => h.2 (decide_eq_true run)) free good
      (fun t same => by rw [result] at same; cases same), result]

theorem exec_feeder_close (ht : s.takes 0x11 tag (unit :: 1 :: rev)) (run : s.sst.mode = .run) :
    exec (.feeder tag (unit :: 1 :: rev)) s =
      if (s.feederRec f).state = .openShed ∨ (s.feederRec f).state = .openExt then
        .next ((closeFeeder f .host s.taken).replied 0x91 tag [0])
      else .next (s.taken.replied 0x91 tag [8]) := by
  have result : feederAction .close f s.taken =
      if (s.feederRec f).state = .openShed ∨ (s.feederRec f).state = .openExt then
        some (closeFeeder f .host s.taken) else none := rfl
  by_cases opened : (s.feederRec f).state = .openShed ∨ (s.feederRec f).state = .openExt
  · rw [if_pos opened] at result ⊢
    rw [exec_feeder_acts len ht name rfl installed (fun h => h.2 (decide_eq_true run)) free good, result]
    intro t same
    rw [result] at same; cases same
    exact closeFeeder_host_handovers (s := s.taken) run opened
  · rw [if_neg opened] at result ⊢
    rw [exec_feeder_acts len ht name rfl installed (fun h => h.2 (decide_eq_true run)) free good
      (fun t same => by rw [result] at same; cases same), result]

theorem exec_feeder_out (ht : s.takes 0x11 tag (unit :: 2 :: rev)) :
    exec (.feeder tag (unit :: 2 :: rev)) s =
      if (s.feederRec f).state = .tripping ∨ (s.feederRec f).state = .closing then .next (s.taken.replied 0x91 tag [8])
      else if (s.feederRec f).state = .outOfService then .next (s.taken.replied 0x91 tag [0])
      else .next ((feederOut f s.taken).replied 0x91 tag [0]) := by
  have result : feederAction .takeOut f s.taken =
      if (s.feederRec f).state = .tripping ∨ (s.feederRec f).state = .closing then none
      else if (s.feederRec f).state = .outOfService then some s.taken else some (feederOut f s.taken) := rfl
  have idle : (feederOut f s.taken).handovers = s.handovers :=
    (Walk.feederOut (S := [.fdc]) (by decide) f s.taken).handovers_eq (by decide)
  rw [exec_feeder_acts len ht name rfl installed (fun h => absurd h.1 (by decide)) free good, result]
  · by_cases moves : (s.feederRec f).state = .tripping ∨ (s.feederRec f).state = .closing
    · rw [if_pos moves, if_pos moves]
    · rw [if_neg moves, if_neg moves]
      by_cases already : (s.feederRec f).state = .outOfService
      · rw [if_pos already, if_pos already]
      · rw [if_neg already, if_neg already]
  · intro t same
    rw [result] at same
    split at same
    · cases same
    · split at same <;> cases same
      · rfl
      · exact idle

theorem exec_feeder_in (ht : s.takes 0x11 tag (unit :: 3 :: rev)) :
    exec (.feeder tag (unit :: 3 :: rev)) s =
      if (s.feederRec f).state = .outOfService ∧ (s.feederRec f).outOfService = true then
        .next ((feederIn f s.taken).replied 0x91 tag [0])
      else .next (s.taken.replied 0x91 tag [0]) := by
  have result : feederAction .bringIn f s.taken =
      if (s.feederRec f).state = .outOfService ∧ (s.feederRec f).outOfService = true then some (feederIn f s.taken)
      else some s.taken := rfl
  have idle : (feederIn f s.taken).handovers = s.handovers :=
    (Walk.feederIn (S := [.fdc]) (by decide) f s.taken).handovers_eq (by decide)
  rw [exec_feeder_acts len ht name rfl installed (fun h => absurd h.1 (by decide)) free good, result]
  · by_cases out : (s.feederRec f).state = .outOfService ∧ (s.feederRec f).outOfService = true
    · rw [if_pos out, if_pos out]
    · rw [if_neg out, if_neg out]
  · intro t same
    rw [result] at same
    split at same <;> cases same
    · exact idle
    · rfl

end

theorem not_feederInstalled_iff (s : State) (f : Fin 16) : (!s.feederInstalled f) = true ↔ s.feederInstalled f = false := by
  cases s.feederInstalled f <;> simp

/-- The refusals of FEEDER (R138). -/
theorem feederRefusals {s : State} {tag unit action : Byte} {rev : List Byte} (len : rev.length = 0 ∨ rev.length = 2)
    (ht : s.takes 0x11 tag (unit :: action :: rev)) {f : Fin 16} (name : f.val + 1 = unit.toNat)
    (known : action.toNat ≤ 3) :
    (s.feederInstalled f = false → exec (.feeder tag (unit :: action :: rev)) s = .next (s.taken.replied 0x91 tag [10])) ∧
    (s.feederInstalled f = true → action.toNat ≤ 1 → s.sst.mode ≠ .run →
      exec (.feeder tag (unit :: action :: rev)) s = .next (s.taken.replied 0x91 tag [3])) ∧
    (s.feederInstalled f = true → 2 ≤ action.toNat ∨ s.sst.mode = .run →
      (s.rsc.active.get 6 ≠ none →
        exec (.feeder tag (unit :: action :: rev)) s = .next (s.taken.replied 0x91 tag [9])) ∧
      (s.rsc.active.get 6 = none → ¬revisionGood rev (s.feederRec f).revision →
        exec (.feeder tag (unit :: action :: rev)) s =
          .next (s.taken.replied 0x91 tag (7 :: bytes16 (s.feederRec f).revision)))) := by
  obtain ⟨a, act, byHand⟩ := feederActionOf_of_le known
  have unitAct := feederAct_unit (s := s.taken) (rev := rev) name act
  refine ⟨fun absent => ?_, fun installed byHand' mode => ?_, fun installed allowed => ?_⟩
  · exact exec_feeder (st := .notInstalled) len ht (fun reply =>
      (unitAct reply).trans (if_pos ((not_feederInstalled_iff _ f).2 absent))) rfl
  all_goals have present : ¬(!s.taken.feederInstalled f) = true := fun h =>
      Bool.false_ne_true (((not_feederInstalled_iff _ f).1 h).symm.trans installed)
  · exact exec_feeder (st := .mode) len ht (fun reply => (unitAct reply).trans
      ((if_neg present).trans (if_pos ⟨byHand.2 byHand', fun h => mode (of_decide_eq_true h)⟩))) rfl
  · have inMode : ¬((a = .trip ∨ a = .close) ∧ ¬s.inRun = true) := fun ⟨hand, off⟩ =>
      allowed.elim (fun h => absurd (byHand.1 hand) (by omega)) fun run => off (decide_eq_true run)
    refine ⟨fun full => ?_, fun free other => ?_⟩
    · exact exec_feeder (st := .busy) len ht (fun reply => (unitAct reply).trans
        ((if_neg present).trans ((if_neg inMode).trans (if_pos ((level7_iff _).2 full))))) rfl
    · exact exec_feeder (st := .staleRevision) len ht (fun reply => (unitAct reply).trans
        ((if_neg present).trans ((if_neg inMode).trans ((if_neg (mt (level7_iff _).1 (Classical.not_not.2 free))).trans
          (if_pos (stale_of_other (params := [unit, action]) len other)))))) rfl

theorem enterFeeder_eq (s : State) (new : FeederState) (r : FeederRec) : s.enterFeeder new r = { r with
    state := new
    timer := if s.sst.mode = .run ∧ (new = .tripping ∨ new = .closing) then
      some (s.dueIn (s.sysNat Sys.breakerTime)) else none
    preShed := if new = .closed then none else r.preShed } := by
  unfold State.enterFeeder; rw [feederTimerFor_eq]

/-- Settles O51: the move, the revision, a trip and a close, RESTORE_NEXT, and FEEDER. -/
theorem feederTable : Obligations.FeederTable := by
  refine ⟨fun s f new => ?_, fun e s => ⟨rfl, fun f => ?_⟩, fun s f o run => ⟨fun closed e head => ?_,
    tripFeeder_refused o, closeFeeder_taken o run, closeFeeder_refused o⟩, fun s c => ?_, ?_⟩
  · intro r t r'
    refine ⟨fun stays => moveFeeder_of_eq stays, fun changes => ?_⟩
    have moved : t = _ := moveFeeder_changed changes
    have row : r' = s.enterFeeder new r := (moveFeeder_self f new s).trans (if_neg changes)
    refine ⟨row.trans (enterFeeder_eq s new r), fun h other => moveFeeder_other f h new s other.symm, ?_, ?_, ?_, ?_⟩
    · rw [moved]
      show queuePlace f r.state new s.fdc.queue = _
      unfold queuePlace
      by_cases joins : new = .openShed
      · rw [if_pos joins, if_pos joins]; rfl
      · rw [if_neg joins, if_neg joins]; rfl
    · exact congrArg (fun x => x.fdc.clearFlag) moved
    · exact congrArg (fun x => x.fdc.settleOwed) moved
    · have notice : feederNotice f (s.enterFeeder new r) s = notify .feeder (f.val + 1)
          [sField new.code, optField (r.origin.map Origin.code), optField r'.preShed,
            if r.outOfService = true then 1 else 0] s := by
        have out : sField (boolInt r.outOfService) = if r.outOfService = true then 1 else 0 := by
          cases r.outOfService <;> rfl
        rw [feederNotice, row, ← out]; rfl
      rw [← notice, moved]
  · exact (fdcEvent_row e s f).trans (ite_congr_iff (feederSameRow_iff _ _) rfl rfl)
  · subst head
    exact tripFeeder_taken o run closed
  · intro start
    refine ⟨fun empty => ?_, fun f rest queue => ⟨fun fits => ?_, fun exceeds => ?_⟩⟩
    · show restoreNext c s = _
      unfold restoreNext; rw [empty]
    · exact (restoreNext_head queue).trans (if_pos fits)
    · exact (restoreNext_head queue).trans (if_neg (Int.not_le.2 exceeds))
  · intro s tag unit action rev len body ht refused done
    refine ⟨fun bad => exec_feeder (st := .range) len ht (feederAct_range (s := s.taken) bad) rfl, fun f name known => ?_⟩
    obtain ⟨absent, modes, rest⟩ := feederRefusals len ht name known
    refine ⟨absent, modes, fun installed allowed => ?_⟩
    obtain ⟨busy, other⟩ := rest installed allowed
    refine ⟨busy, other, fun free good => ?_⟩
    have byHand : action.toNat ≤ 1 → s.sst.mode = .run := fun h => allowed.resolve_left (by omega)
    refine ⟨?_, ?_, ?_, ?_⟩
    · rintro rfl
      exact exec_feeder_trip len name installed free good ht (byHand (by decide))
    · rintro rfl
      exact exec_feeder_close len name installed free good ht (byHand (by decide))
    · rintro rfl
      exact exec_feeder_out len name installed free good ht
    · rintro rfl
      refine (exec_feeder_in len name installed free good ht).trans ?_
      by_cases out : (s.feederRec f).state = .outOfService ∧ (s.feederRec f).outOfService = true
      · rw [if_pos out, feederIn_eq (s := s.taken) installed out.1]
        exact (if_pos out).symm
      · exact (if_neg out).trans (if_neg out).symm

end Sys2Proof.Machine

/-!
SUPPORT. FDC: the input and the timer of a feeder (R129, R130, R132, R133, R141, R143).
-/
namespace Sys2Proof.Machine

/-! ### The settlement of the clear (R141) -/

theorem settleClear_eq (s : State) : settleClear s =
    if s.fdc.settleOwed = true ∧ ¬∃ f, s.feederInstalled f = true ∧
        ((s.feederRec f).state = .tripping ∨ (s.feederRec f).state = .closing) then
      emit .bssSettled { s with fdc.settleOwed := false }
    else s := by
  refine ite_congr_iff ?_ rfl rfl
  simp only [Bool.and_eq_true, List.all_eq_true, Bool.or_eq_true, Bool.not_eq_true', bne_iff_ne, not_exists, Classical.not_and_iff_not_or_not,
    not_or, Bool.not_eq_true, List.mem_finRange, true_implies]

/-! ### The input of a feeder (R129, R132, R133, R143) -/

/-- The mapping of a feeder that is out of service in every way changes nothing. -/
theorem mapFeeder_out {f : Fin 16} {s : State} (state : (s.feederRec f).state = .outOfService)
    (out : s.feederInstalled f = false ∨ (s.feederRec f).outOfService = true) : mapFeeder f s = s := by
  have mapped : s.mappedFeeder f = .outOfService := mappedFeeder_out out
  unfold mapFeeder
  rw [mapped, moveFeeder_of_eq state]
  exact if_neg (by rw [state]; decide)

/-- What a change of BREAKER does, with `e` its event in RUN. -/
theorem feederInput_table {c : Instr} {level : Bool} {inRun : Fin 16 → State → State} {e : State → State} {s : State}
    {f : Fin 16} (calm : s.calm) (runs : exec c s = .next (feederInput level inRun f s))
    (acts : inRun f (modFeeder f (fun r => { r with breaker := level }) s) =
      e (modFeeder f (fun r => { r with breaker := level }) s))
    (rests : (s.feederRec f).state = .outOfService →
      e (modFeeder f (fun r => { r with breaker := level }) s) = modFeeder f (fun r => { r with breaker := level }) s) :
    ((s.feederRec f).breaker = level → exec c s = .next s) ∧
    ((s.feederRec f).breaker ≠ level → (s.feederRec f).state = .outOfService →
      s.feederInstalled f = false ∨ (s.feederRec f).outOfService = true →
      exec c s = .next (modFeeder f (fun r => { r with breaker := level }) s)) ∧
    ((s.feederRec f).breaker ≠ level → s.sst.mode ≠ .run →
      exec c s = .next (fdcEvent (mapFeeder f) (modFeeder f (fun r => { r with breaker := level }) s))) ∧
    ((s.feederRec f).breaker ≠ level → s.sst.mode = .run →
      exec c s = .next (cascade (fdcEvent e (modFeeder f (fun r => { r with breaker := level }) s)))) := by
  obtain ⟨high, idle⟩ := calm
  generalize level_eq : modFeeder f (fun r => { r with breaker := level }) s = a at acts rests ⊢
  have row : a.feederRec f = { s.feederRec f with breaker := level } := by rw [← level_eq, modFeeder_feederRec_self]
  have calm : a.handovers = [] := by rw [← level_eq]; exact idle
  have mode : a.sst = s.sst := by rw [← level_eq]; rfl
  have event : (s.feederRec f).breaker ≠ level →
      exec c s = .next (cascade (fdcEvent (if s.inRun then inRun f else mapFeeder f) a)) := fun h => by
    rw [runs, feederInput, if_neg h, takeInput_high _ _ _ high, level_eq, feederInputActs, State.inRun, mode]; rfl
  have outside : (s.feederRec f).breaker ≠ level → s.sst.mode ≠ .run →
      exec c s = .next (fdcEvent (mapFeeder f) a) := fun h off => by
    have out : ¬s.inRun = true := fun h => off (of_decide_eq_true h)
    rw [event h, if_neg out]
    refine congrArg Host.Outcome.next (cascade_of_idle ?_)
    exact ((Walk.fdcEvent (S := [.fdc]) (by decide) _ a (Walk.mapFeeder (by decide) f a)).handovers_eq (by decide)).trans calm
  have inside : (s.feederRec f).breaker ≠ level → s.sst.mode = .run →
      exec c s = .next (cascade (fdcEvent e a)) := fun h run => by
    have here : s.inRun = true := decide_eq_true run
    rw [event h, if_pos here, fdcEvent_congr acts]
  refine ⟨fun h => ?_, fun h state out => ?_, outside, inside⟩
  · rw [runs, feederInput, if_pos h]
  · by_cases run : s.sst.mode = .run
    · rw [inside h run, fdcEvent_of_eq _ _ (rests state), cascade_of_idle calm]
    · have stays : mapFeeder f a = a := mapFeeder_out (by rw [row]; exact state) (by
        rw [feederInstalled_congr (congrArg Sst.image mode), row]; exact out)
      rw [outside h run, fdcEvent_of_eq _ _ stays]

theorem advanceTo_feederRec (due : Tick) (s : State) (f : Fin 16) : (advanceTo due s).feederRec f = s.feederRec f := by
  unfold advanceTo; split <;> rfl

/-- Settles O52: the mapping, BREAKER and the timer, the trip while the clear flag is set, the settlement. -/
theorem feederInputsAndTimer : Obligations.FeederInputsAndTimer := by
  refine ⟨fun s f => ⟨ite_congr_iff (by simp) rfl rfl, rfl⟩, fun s f calm => ?_, fun s f => ?_, fun s => ?_⟩
  · intro r acts noOrigin
    refine ⟨?_, ?_, fun still => ?_, fun due runs moves => ?_⟩
    · refine feederInput_table (inRun := feederFallen) calm rfl ?_ fun state => ?_
      · unfold feederFallen confirmTrip
        rw [modFeeder_feederRec_self]
        dsimp only [r, noOrigin]
        cases (s.feederRec f).state with
        | tripping =>
          cases (s.feederRec f).origin with
          | none => rfl
          | some o => cases o <;> rfl
        | _ => rfl
      · dsimp only [r]; rw [state]
    · refine feederInput_table (inRun := feederRisen) calm rfl ?_ fun state => ?_
      · unfold feederRisen confirmClose
        rw [modFeeder_feederRec_self]
        dsimp only [r, noOrigin]
        cases (s.feederRec f).state with
        | closing =>
          cases (s.feederRec f).origin with
          | none => rfl
          | some o => cases o <;> rfl
        | _ => rfl
      · dsimp only [r]; rw [state]
    · show Host.Outcome.next (breakerTimer f s) = _
      unfold breakerTimer
      split
      · next moves =>
        have idle : r.timer = none := still.resolve_right fun ⟨notTripping, notClosing⟩ => by
          simp [r] at notTripping notClosing
          simp [notTripping, notClosing] at moves
        rw [takeEvent_high _ _ calm.1, idle, expire_idle]
        exact congrArg Host.Outcome.next (cascade_of_idle calm.2)
      · rfl
    · have here : (decide (r.state = .tripping) || decide (r.state = .closing)) = true := by simpa using moves
      show Host.Outcome.next (breakerTimer f s) = _
      unfold breakerTimer
      rw [if_pos here, takeEvent_high _ _ calm.1, runs, expire_running]
      refine congrArg (fun x => Host.Outcome.next (cascade x)) (fdcEvent_congr ?_)
      unfold breakerExpired
      rw [advanceTo_feederRec]
      dsimp only [r, noOrigin] at moves ⊢
      rcases moves with state | state
      · rw [state]
        cases (s.feederRec f).origin with
        | none => rfl
        | some o => cases o <;> rfl
      · rw [state]
        cases (s.feederRec f).origin with
        | none => rfl
        | some o => cases o <;> rfl
  · exact ite_congr_iff (by simp [State.inRun, and_assoc]) rfl rfl
  · intro moving
    refine ⟨fun h => ?_, fun owed settled => ?_⟩
    · exact (settleClear_eq s).trans (if_neg fun ⟨owed, settled⟩ =>
        h.elim (fun no => by rw [owed] at no; cases no) settled)
    · exact (settleClear_eq s).trans (if_pos ⟨owed, settled⟩)

end Sys2Proof.Machine

/-!
SUPPORT. CTX: PLANT, the setpoint link, the ceilings of a pass and the ticks of the fallbacks (R45 to R52).
-/
namespace Sys2Proof.Machine

/-! ### PLANT (R45) -/

section
variable {s : State} {tag unit action : Byte} {rev : List Byte} {p : Fin 8}

theorem exec_plant {t : State} {st : Status} {values : List Byte} (len : rev.length = 0 ∨ rev.length = 2)
    (ht : s.takes 0x12 tag (unit :: action :: rev))
    (act : ∀ reply : Reply, plantAct (unit :: action :: rev) reply s.taken = reply st values t)
    (idle : t.handovers = s.handovers) :
    exec (.plant tag (unit :: action :: rev)) s = .next (t.replied 0x92 tag (st.code :: values)) :=
  request_answered (plantAct (unit :: action :: rev)) ht (genset_fits len) act idle

theorem plantAct_range (bad : unit = 0 ∨ 8 < unit.toNat ∨ 1 < action.toNat) (reply : Reply) :
    plantAct (unit :: action :: rev) reply s = reply .range [] s := by
  unfold plantAct
  split
  · rfl
  · next p row =>
    change unitRow 8 unit.toNat = some p at row
    refine if_pos ((bad.resolve_left fun h => ?_).resolve_left fun h => ?_)
    · rw [unitRow_none (.inl ((byte_eq_zero_iff unit).1 h))] at row; cases row
    · rw [unitRow_none (.inr h)] at row; cases row

theorem plantAct_unit (name : p.val + 1 = unit.toNat) (known : action.toNat ≤ 1) (reply : Reply) :
    plantAct (unit :: action :: rev) reply s =
      if !s.plantInstalled p then reply .notInstalled [] s
      else if stale (expected 2 (unit :: action :: rev)) (s.plantRow p).revision then
        reply .staleRevision (bytes16 (s.plantRow p).revision) s
      else reply .ok [] (setService p (decide (action = 0)) s) := by
  have row : unitRow 8 (param (unit :: action :: rev) 0) = some p := unitRow_val name
  have wanted : decide (param (unit :: action :: rev) 1 = 0) = decide (action = 0) :=
    decide_eq_decide.2 (byte_eq_zero_iff action).symm
  unfold plantAct; rw [row]
  dsimp only
  rw [wanted]
  exact if_neg (Nat.not_lt.2 known)

end

theorem not_plantInstalled_iff (s : State) (p : Fin 8) : (!s.plantInstalled p) = true ↔ s.plantInstalled p = false := by
  cases s.plantInstalled p <;> simp

theorem setService_changed {p : Fin 8} {v : Bool} {s : State} (changes : (s.plantRow p).inService ≠ v) :
    setService p v s = notify .plant (p.val + 1) [if v = true then 1 else 0]
      { s with
        ctx.plants := s.ctx.plants.put p
          { s.plantRow p with inService := v, revision := (s.plantRow p).revision + 1 } } := by
  have field : sField (boolInt v) = if v = true then 1 else 0 := by cases v <;> rfl
  rw [← field]
  exact if_neg changes

/-- Settles O53: the refusals, the service that is wanted already, a change of service. -/
theorem plantTable : Obligations.PlantTable := by
  intro s tag unit action rev len body ht refused
  refine ⟨fun bad => exec_plant (st := .range) len ht (plantAct_range (s := s.taken) bad) rfl, fun p name known => ?_⟩
  intro row wanted
  have unitAct := plantAct_unit (s := s.taken) (rev := rev) name known
  refine ⟨fun absent => ?_, fun installed other => ?_, fun installed good => ?_⟩
  · exact exec_plant (st := .notInstalled) len ht (fun reply =>
      (unitAct reply).trans (if_pos ((not_plantInstalled_iff _ p).2 absent))) rfl
  all_goals have present : ¬(!s.taken.plantInstalled p) = true := fun h =>
      Bool.false_ne_true (((not_plantInstalled_iff _ p).1 h).symm.trans installed)
  · exact exec_plant (st := .staleRevision) len ht (fun reply => (unitAct reply).trans
      ((if_neg present).trans (if_pos (stale_of_other (params := [unit, action]) len other)))) rfl
  · have acts := fun reply => (unitAct reply).trans
      ((if_neg present).trans (if_neg (not_stale_of_good (params := [unit, action]) len good)))
    refine ⟨fun same => ?_, fun changes => ?_⟩
    · exact exec_plant (st := .ok) len ht (fun reply => (acts reply).trans (congrArg (reply .ok []) (if_pos same))) rfl
    · have changed := setService_changed (s := s.taken) (p := p) (v := wanted) changes
      exact exec_plant (st := .ok) len ht (fun reply => (acts reply).trans (congrArg (reply .ok []) changed))
        (notify_handovers ..)

/-! ### Making ceilings pending for every plant (R46 to R52) -/

/-- A ceiling waits for a plant where one is given. -/
def place (pick : Fin 8 → Option Int) (w : Tab 8 (Option Int)) (p : Fin 8) : Tab 8 (Option Int) :=
  (pick p).elim w fun v => w.put p (some v)

theorem foldl_place_get (pick : Fin 8 → Option Int) (l : List (Fin 8)) (w : Tab 8 (Option Int)) (q : Fin 8) :
    (l.foldl (place pick) w).get q = if q ∈ l then (pick q).or (w.get q) else w.get q := by
  induction l generalizing w with
  | nil => rfl
  | cons p l ih =>
    have one : (place pick w p).get q = if p = q then (pick q).or (w.get q) else w.get q := by
      unfold place
      by_cases e : p = q
      · subst e
        rw [if_pos rfl]
        cases pick p with
        | none => rfl
        | some v => exact Tab.get_put_self ..
      · rw [if_neg e]
        cases pick p with
        | none => rfl
        | some v => exact Tab.get_put_ne _ _ _ _ e
    rw [List.foldl_cons, ih, one]
    by_cases e : p = q
    · subst e
      cases pick p <;> simp
    · simp [e, Ne.symm e]

/-- Each plant in turn gets the ceiling picked for it; nothing else changes. -/
theorem forAll_place {f : Fin 8 → State → State} (pick : Fin 8 → Option Int) {s : State}
    (step : ∀ p w, f p { s with ctx.waiting := w } = { s with ctx.waiting := place pick w p }) :
    forAll 8 f s = { s with ctx.waiting := Tab.ofFn fun p => (pick p).or (s.ctx.waiting.get p) } := by
  have key : ∀ (l : List (Fin 8)) (w : Tab 8 (Option Int)),
      l.foldl (fun s i => f i s) { s with ctx.waiting := w } = { s with ctx.waiting := l.foldl (place pick) w } := by
    intro l
    induction l with
    | nil => exact fun _ => rfl
    | cons p l ih => exact fun w => by rw [List.foldl_cons, step, ih, List.foldl_cons]
  have all : (List.finRange 8).foldl (place pick) s.ctx.waiting =
      Tab.ofFn fun p => (pick p).or (s.ctx.waiting.get p) :=
    Tab.ext_get fun q => by rw [foldl_place_get, if_pos (List.mem_finRange q), Tab.get_ofFn]
  exact (key _ s.ctx.waiting).trans (by rw [all])

/-- What a fallback picks for a plant (R51, R52). -/
def State.fallbackPick (s : State) (choice : Fallback) (p : Fin 8) : Option Int :=
  if s.plantInstalled p = false then none
  else match choice with
    | .hold => none
    | .zero => some 0
    | .full => some (if s.ctx.forcedZero = true ∨ (s.plantRow p).inService = false then 0 else s.plantCapacity p)

theorem fallbackFill_eq (choice : Fallback) (s : State) :
    fallbackFill choice s = { s with
      ctx.waiting := Tab.ofFn fun p => (s.fallbackPick choice p).or (s.ctx.waiting.get p) } := by
  cases choice with
  | hold =>
    have same : (Tab.ofFn fun p => (s.fallbackPick .hold p).or (s.ctx.waiting.get p)) = s.ctx.waiting :=
      Tab.ext_get fun p => by
        rw [Tab.get_ofFn, State.fallbackPick]
        split <;> rfl
    rw [same]; rfl
  | zero =>
    refine forAll_place (s.fallbackPick .zero) fun p w => ?_
    show (if s.plantInstalled p = true then makePending p 0 { s with ctx.waiting := w } else _) = _
    cases installed : s.plantInstalled p with
    | false => rw [place, State.fallbackPick, installed]; rfl
    | true =>
      rw [place, State.fallbackPick, installed, makePending, ite_self]; rfl
  | full =>
    refine forAll_place (s.fallbackPick .full) fun p w => ?_
    show (if s.plantInstalled p = true then
      makePending p (if (s.plantRow p).inService = true then s.plantCapacity p else 0) { s with ctx.waiting := w } else _) = _
    cases installed : s.plantInstalled p with
    | false => rw [place, State.fallbackPick, installed]; rfl
    | true =>
      have ceiling : (if s.ctx.forcedZero = true then 0 else if (s.plantRow p).inService = true then s.plantCapacity p else 0) =
          if s.ctx.forcedZero = true ∨ (s.plantRow p).inService = false then 0 else s.plantCapacity p := by
        cases s.ctx.forcedZero <;> cases (s.plantRow p).inService <;> simp
      rw [place, State.fallbackPick, installed, ← ceiling]; rfl

theorem fallbackPick_advanceTo (due : Tick) (s : State) : (advanceTo due s).fallbackPick = s.fallbackPick := by
  unfold advanceTo; split <;> rfl

/-- A pass's ceilings: the plants whose ceiling is made pending (R47, R48). -/
def State.passPick (s : State) (cs : Tab 8 (Option Int)) (p : Fin 8) : Option Int :=
  match cs.get p with
  | none => none
  | some c =>
    if s.plantInstalled p = true ∧ (s.sysNat Sys.refreshPasses ≤ s.ctx.refreshCount + 1 ∨
        s.ctx.silent = none ∧ s.ctx.fault = none ∧
          ceilingMoves (s.sys Sys.ceilingDeadband) (s.plantRow p).lastSent c = true)
    then some (if s.ctx.forcedZero = true then 0 else c) else none

theorem takeCeilings_run {cs : Tab 8 (Option Int)} {s : State} (run : s.sst.mode = .run) :
    takeCeilings cs s = { s with
      ctx.refreshCount := if s.sysNat Sys.refreshPasses ≤ s.ctx.refreshCount + 1 then 0 else s.ctx.refreshCount + 1
      ctx.waiting := Tab.ofFn fun p => (s.passPick cs p).or (s.ctx.waiting.get p) } := by
  have inside : s.inRun = true := decide_eq_true run
  unfold takeCeilings
  rw [if_pos inside]
  dsimp only
  simp only [decide_eq_true_eq]
  refine forAll_place (s := { s with ctx.refreshCount := if s.sysNat Sys.refreshPasses ≤ s.ctx.refreshCount + 1 then 0 else s.ctx.refreshCount + 1 })
    (s.passPick cs) fun p w => ?_
  unfold place State.passPick
  cases cs.get p with
  | none => rfl
  | some c =>
    dsimp only
    have passes : (s.plantInstalled p && (decide (s.sysNat Sys.refreshPasses ≤ s.ctx.refreshCount + 1) ||
        s.ctx.silent.isNone && s.ctx.fault.isNone &&
          ceilingMoves (s.sys Sys.ceilingDeadband) (s.plantRow p).lastSent c)) = true ↔
        s.plantInstalled p = true ∧ (s.sysNat Sys.refreshPasses ≤ s.ctx.refreshCount + 1 ∨
          s.ctx.silent = none ∧ s.ctx.fault = none ∧
            ceilingMoves (s.sys Sys.ceilingDeadband) (s.plantRow p).lastSent c = true) := by
      simp only [Bool.and_eq_true, Bool.or_eq_true, decide_eq_true_eq, Option.isNone_iff_eq_none, and_assoc]
    by_cases pends : s.plantInstalled p = true ∧ (s.sysNat Sys.refreshPasses ≤ s.ctx.refreshCount + 1 ∨
        s.ctx.silent = none ∧ s.ctx.fault = none ∧
          ceilingMoves (s.sys Sys.ceilingDeadband) (s.plantRow p).lastSent c = true)
    · rw [if_pos pends]; exact if_pos (passes.2 pends)
    · rw [if_neg pends]; exact if_neg (mt passes.1 pends)

theorem ceilingMoves_iff (deadband : Int) (last : Option Int) (c : Int) : ceilingMoves deadband last c = true ↔
    last = none ∨ ∃ l, last = some l ∧ (c < l ∨ l < c ∧ deadband ≤ c - l) := by
  cases last with
  | none => simp [ceilingMoves]
  | some l => simp [ceilingMoves]

/-- Settles O54: the setpoint link, its frame, the ceilings of a pass, and the ticks of the fallbacks. -/
theorem ceilingsAndFallbackTicks : Obligations.CeilingsAndFallbackTicks := by
  refine ⟨fun s calm => ⟨fun none_ => ?_, fun p c waits first => ?_⟩, fun p c => rfl, fun s cs => ⟨fun off => ?_, fun run => ?_⟩,
    fun s calm => ?_⟩
  · have idle : s.nextCeiling = none := List.find?_eq_none.2 fun p _ => by rw [none_ p]; exact Bool.false_ne_true
    show Host.Outcome.next (takeEvent sendCeiling s) = _
    rw [takeEvent_high _ _ calm.1, sendCeiling, idle]
    exact congrArg Host.Outcome.next (cascade_of_idle calm.2)
  · have next : s.nextCeiling = some p :=
      find?_finRange (by rw [waits]; rfl) fun q less => by rw [first q less]; rfl
    show Host.Outcome.next (takeEvent sendCeiling s) = _
    rw [takeEvent_high _ _ calm.1, sendCeiling, next]
    dsimp only
    rw [waits]
    exact congrArg Host.Outcome.next (cascade_of_idle (s := startCeiling p c s) calm.2)
  · exact if_neg fun h => off (of_decide_eq_true h)
  · intro t refresh
    have taken : t = _ := takeCeilings_run run
    refine ⟨?_, ?_, fun p => ?_⟩
    · rw [taken]
    · rw [taken]
    · rw [taken]
      dsimp only
      rw [Tab.get_ofFn, State.passPick]
      cases cs.get p with
      | none => rfl
      | some c =>
        dsimp only
        simp only [ceilingMoves_iff]
        split
        · rfl
        · rfl
  · intro filled
    have fills : ∀ choice a, a.fallbackPick = s.fallbackPick →
        (Tab.ofFn fun p => (a.fallbackPick choice p).or (a.ctx.waiting.get p)) = filled choice a := fun choice a same => by
      rw [same]
      refine congrArg Tab.ofFn (funext fun p => ?_)
      unfold State.fallbackPick
      split
      · rfl
      · cases choice <;> rfl
    refine ⟨fun none_ => ?_, fun none_ => ?_, fun run here => ?_, fun run here => ?_⟩
    · show Host.Outcome.next (takeEvent silentTickDue s) = _
      rw [takeEvent_high _ _ calm.1, silentTickDue, none_]
      exact congrArg Host.Outcome.next (cascade_of_idle calm.2)
    · show Host.Outcome.next (takeEvent faultTickDue s) = _
      rw [takeEvent_high _ _ calm.1, faultTickDue, none_]
      exact congrArg Host.Outcome.next (cascade_of_idle calm.2)
    · intro a
      have idle : a.handovers = [] := (advanceTo_handovers run.due s).trans calm.2
      show Host.Outcome.next (takeEvent silentTickDue s) = _
      rw [takeEvent_high _ _ calm.1, silentTickDue, here]
      dsimp only
      rw [silentTick, fallbackFill_eq, ← fills run.choice a (fallbackPick_advanceTo run.due s)]
      exact congrArg Host.Outcome.next (cascade_of_idle idle)
    · intro a
      have idle : a.handovers = [] := (advanceTo_handovers run.due s).trans calm.2
      show Host.Outcome.next (takeEvent faultTickDue s) = _
      rw [takeEvent_high _ _ calm.1, faultTickDue, here]
      dsimp only
      rw [faultTick, fallbackFill_eq, ← fills run.choice a (fallbackPick_advanceTo run.due s)]
      exact congrArg Host.Outcome.next (cascade_of_idle idle)

end Sys2Proof.Machine

/-!
SUPPORT. BSS: BLACKSTART and the entry to CLEARING, with the actions it has of CTX, GSD and FDC (R50, R122, R141, R148,
R157, R159).
-/
namespace Sys2Proof.Machine

/-! ### The end of forced-zero (R19, R50) -/

/-- A notice is queued beside the registers of BEN. -/
theorem notify_withBen (k : NoticeKind) (n : Nat) (vs : List Word) (d : Ben) (s : State) :
    notify k n vs { s with ben := d } = { notify k n vs s with ben := d } := by
  unfold notify; dsimp only; split <;> rfl

theorem clearForcedZero_eq (s : State) : clearForcedZero s =
    if s.ctx.forcedZero = true then notify .plant 0 [1, 0] { s with ctx.forcedZero := false } else s := rfl

theorem liftForcedZero_eq (s : State) : liftForcedZero s =
    if s.ctx.forcedZero = true then notify .plant 0 [1, 0] { s with ctx.forcedZero := false, ben.aPrev := 0 }
    else { s with ben.aPrev := 0 } := by
  unfold liftForcedZero
  rw [clearForcedZero_eq]
  dsimp only
  split
  · rw [notify_ben]
    exact (notify_withBen .plant 0 [1, 0] { s.ben with aPrev := 0 } { s with ctx.forcedZero := false }).symm
  · rfl

theorem liftForcedZero_bss (s : State) : (liftForcedZero s).bss = s.bss := by
  rw [liftForcedZero_eq]
  split
  · exact notify_bss ..
  · rfl

/-! ### State notices (R162) -/

theorem notifyProgram_eq (cause : Cause) (s : State) : notifyProgram cause s =
    notify .blackstart s.bssSubject [sField s.bss.program.code, BitVec.ofNat 32 s.bss.restarts, sField cause.code] s := by
  rw [notifyProgram, notifyProgramOf, sField_natCast]

theorem abandonProgram_eq (s : State) : abandonProgram s =
    emit (.complete .bss 0 .failed) (notify .blackstart (liftForcedZero s).bssSubject
      [0, BitVec.ofNat 32 s.bss.restarts, 9] { liftForcedZero s with bss.program := .idle }) := by
  have restarts : (liftForcedZero s).bss.restarts = s.bss.restarts := by rw [liftForcedZero_bss]
  unfold abandonProgram; dsimp only
  rw [notifyProgram_eq, ← restarts]; rfl

/-! ### BLACKSTART (R159) -/

section
variable {s : State} {tag b : Byte}

theorem blackstartAct_eq (reply : Reply) : blackstartAct [b] reply s =
    if 1 < b.toNat then reply .range [] s
    else if s.sst.mode ≠ .run then reply .mode [] s
    else if s.bss.program ≠ .failed then reply .state [] s
    else if b = 0 then reply .ok [] (retryProgram s)
    else reply .ok [] (abandonProgram s) := by
  unfold blackstartAct
  exact ite_congr_iff Iff.rfl rfl (ite_congr_iff (by simp [State.inRun]) rfl (ite_congr_iff Iff.rfl rfl
    (ite_congr_iff (byte_eq_zero_iff b).symm rfl rfl)))

theorem exec_blackstart_refused {st : Status} (ht : s.takes 0x14 tag [b])
    (act : ∀ reply : Reply, blackstartAct [b] reply s.taken = reply st [] s.taken) :
    exec (.blackstart tag [b]) s = .next (s.taken.replied 0x94 tag [st.code]) :=
  request_answered (blackstartAct [b]) ht rfl act rfl

theorem exec_blackstart_taken {u : State} (ht : s.takes 0x14 tag [b])
    (act : ∀ reply : Reply, blackstartAct [b] reply s.taken = reply .ok [] u) :
    exec (.blackstart tag [b]) s = .next (cascade (u.replied 0x94 tag [0])) :=
  request_cascade (blackstartAct [b]) ht rfl (act _)

end

/-! ### The entry to CLEARING (R148) -/

theorem enterClearing_eq (cause : Cause) (s : State) : enterClearing cause s =
    clearBus (stopAllSets (withdrawSets (setForcedZero
      (notify .blackstart 0 [1, BitVec.ofNat 32 s.bss.restarts, sField cause.code]
        { s with bss := ⟨.clearing, none, s.bss.restarts, Tab.const 6 false, none, none, none, none,
            none, none, none⟩ })))) := by
  unfold enterClearing; dsimp only
  rw [notifyProgram_eq]; rfl

theorem setForcedZero_get (s : State) (clear : s.ctx.forcedZero = false) : ∃ w : Tab 8 (Option Int),
    setForcedZero s = notify .plant 0 [1, 1] { s with ctx.forcedZero := true, ctx.waiting := w } ∧
    ∀ p, w.get p = if s.ctx.waiting.get p ≠ none ∨ s.plantInstalled p = true ∧
        ((s.plantRow p).lastSent = none ∨ ∃ l, (s.plantRow p).lastSent = some l ∧ 0 < l)
      then some 0 else none := by
  refine ⟨_, if_neg (by rw [clear]; decide), fun p => ?_⟩
  rw [Tab.get_mapIdx]
  cases s.ctx.waiting.get p with
  | some c => simp
  | none =>
    cases (s.plantRow p).lastSent with
    | none => simp
    | some l => simp

/-! ### The withdrawal and the stop of sets (R122) -/

theorem gsdEvent_state (f : State → State) (s : State) (g : Fin 6) :
    ((gsdEvent f s).setRec g).state = ((f s).setRec g).state := by
  rw [gsdEvent_row]; split <;> rfl

theorem moveSet_outOfService (g h : Fin 6) (new : SetState) (s : State) :
    ((moveSet g new s).setRec h).outOfService = (s.setRec h).outOfService :=
  congrArg (fun o => o.2.2.2.1) ((Quiet.moveSet g new s).sets h)

/-- What a withdrawal and a stop read of a set. -/
def SetRec.service (r : SetRec) : SetState × Bool := (r.state, r.outOfService)

theorem SetRec.service_fst (r : SetRec) : r.service.1 = r.state := rfl

theorem SetRec.service_snd (r : SetRec) : r.service.2 = r.outOfService := rfl

/-- A set that waits to start gives up its start (R122). -/
def withdrawSet (g : Fin 6) (s : State) : State :=
  if (s.setRec g).state = .queued || (s.setRec g).state = .rest then giveUp g s else s

theorem withdrawSets_eq (s : State) : withdrawSets s = gsdEvent (forAll 6 withdrawSet) s := rfl

theorem withdrawSet_self (g : Fin 6) (s : State) : ((withdrawSet g s).setRec g).service =
    if (s.setRec g).state = .queued ∨ (s.setRec g).state = .rest then
      (if (s.setRec g).outOfService = true then .unavailable else .standby, (s.setRec g).outOfService)
    else (s.setRec g).service := by
  unfold withdrawSet
  by_cases h : (s.setRec g).state = .queued ∨ (s.setRec g).state = .rest
  · rw [if_pos (by simpa using h), if_pos h]
    exact Prod.ext (moveSet_state g _ s) (moveSet_outOfService g g _ s)
  · rw [if_neg (by simpa using h), if_neg h]

theorem withdrawSet_other {g h : Fin 6} (s : State) (other : g ≠ h) : (withdrawSet g s).setRec h = s.setRec h := by
  unfold withdrawSet
  split
  · exact moveSet_other g h _ s other
  · rfl

theorem withdrawSets_state (s : State) (g : Fin 6) :
    ((withdrawSets s).setRec g).state = (if (s.setRec g).state = .queued ∨ (s.setRec g).state = .rest
      then (if (s.setRec g).outOfService = true then .unavailable else .standby)
      else (s.setRec g).state) := by
  have row := forAll_row withdrawSet (fun t i => (t.setRec i).service)
    (fun r => if r.1 = .queued ∨ r.1 = .rest then (if r.2 = true then .unavailable else .standby, r.2) else r)
    withdrawSet_self (fun i j t other => congrArg SetRec.service (withdrawSet_other t other)) s g
  have state := congrArg Prod.fst row
  rw [SetRec.service_fst, SetRec.service_fst, SetRec.service_snd] at state
  rw [withdrawSets_eq, gsdEvent_state, state]
  split <;> rfl

/-- An ONLINE set is stopped (R122). -/
def stopIfOnline (g : Fin 6) (s : State) : State :=
  if (s.setRec g).state = .online then stopSet g none s else s

theorem stopAllSets_eq (s : State) : stopAllSets s = forAll 6 stopIfOnline s := rfl

theorem stopAllSets_state (s : State) (g : Fin 6) :
    ((stopAllSets s).setRec g).state = (if (s.setRec g).state = .online then .stopping else (s.setRec g).state) := by
  rw [stopAllSets_eq]
  refine forAll_row stopIfOnline (fun t i => (t.setRec i).state) (fun st => if st = .online then .stopping else st)
    (fun i t => ?_) (fun i j t other => ?_) s g
  · unfold stopIfOnline
    split
    · rw [stopSet, gsdEvent_state]; exact moveSet_state i .stopping _
    · rfl
  · unfold stopIfOnline
    split
    · rw [stopSet, gsdEvent_state, moveSet_other i j _ _ other, modSet_setRec, if_neg other]
    · rfl

/-! ### The clear (R141) -/

/-- What the clear reads of a feeder. -/
def FeederRec.clearing (r : FeederRec) : FeederState × Option Origin := (r.state, r.origin)

theorem FeederRec.clearing_fst (r : FeederRec) : r.clearing.1 = r.state := rfl

theorem FeederRec.clearing_snd (r : FeederRec) : r.clearing.2 = r.origin := rfl

/-- A feeder that is CLOSED is tripped for the program (R141). -/
def tripIfClosed (f : Fin 16) (s : State) : State :=
  if (s.feederRec f).state = .closed then tripFeeder f .blackstart s else s

theorem clearBus_eq (s : State) : clearBus s =
    settleClear (forAll 16 tripIfClosed { s with fdc.clearFlag := true, fdc.settleOwed := true }) := rfl

theorem fdcEvent_clearing (e : State → State) (s : State) (f : Fin 16) :
    ((fdcEvent e s).feederRec f).clearing = ((e s).feederRec f).clearing := by
  rw [fdcEvent_row]; split <;> rfl

theorem tripIfClosed_self {f : Fin 16} {s : State} (run : s.sst.mode = .run) :
    ((tripIfClosed f s).feederRec f).clearing =
      if (s.feederRec f).clearing.1 = .closed then (.tripping, some .blackstart) else (s.feederRec f).clearing := by
  unfold tripIfClosed
  by_cases closed : (s.feederRec f).state = .closed
  · rw [if_pos closed, tripFeeder_taken .blackstart run closed, fdcEvent_clearing, beginTrip, moveFeeder_self,
      modFeeder_feederRec_self]
    dsimp only
    rw [if_neg (by rw [closed]; decide)]
    exact (if_pos closed).symm
  · rw [if_neg closed]
    exact (if_neg closed).symm

theorem tripIfClosed_other {f h : Fin 16} {s : State} (other : f ≠ h) :
    ((tripIfClosed f s).feederRec h).clearing = (s.feederRec h).clearing := by
  unfold tripIfClosed tripFeeder
  split
  · split
    · rw [fdcEvent_clearing, beginTrip, moveFeeder_other f h _ _ other, modFeeder_feederRec, if_neg other]
    · rfl
  · rfl

/-- What the trips of a clear leave as it is. -/
def State.besideFeeders (s : State) : Bool × Bool × List Handover × Sst :=
  (s.fdc.clearFlag, s.fdc.settleOwed, s.handovers, s.sst)

theorem moveFeeder_besideFeeders (f : Fin 16) (new : FeederState) (s : State) :
    (moveFeeder f new s).besideFeeders = s.besideFeeders := by
  by_cases stays : (s.feederRec f).state = new
  · rw [moveFeeder_of_eq stays]
  · rw [moveFeeder_changed stays]
    show (s.fdc.clearFlag, s.fdc.settleOwed, (feederNotice f _ s).handovers, (feederNotice f _ s).sst) = _
    rw [feederNotice, notify_handovers, notify_sst]; rfl

theorem tripIfClosed_besideFeeders (f : Fin 16) (s : State) : (tripIfClosed f s).besideFeeders = s.besideFeeders := by
  unfold tripIfClosed tripFeeder
  split
  · split
    · exact moveFeeder_besideFeeders f .tripping _
    · rfl
  · rfl

/-- The clear in RUN: every CLOSED feeder trips, and a clear that finds none moving is settled (R141). -/
theorem clearBus_run {s : State} (run : s.sst.mode = .run) :
    let moving := ∃ f, s.feederInstalled f = true ∧
      ((s.feederRec f).state = .closed ∨ (s.feederRec f).state = .tripping ∨ (s.feederRec f).state = .closing)
    (clearBus s).fdc.clearFlag = true ∧
    (∀ f, ((clearBus s).feederRec f).clearing =
      if (s.feederRec f).state = .closed then (.tripping, some .blackstart) else (s.feederRec f).clearing) ∧
    (moving → (clearBus s).fdc.settleOwed = true ∧ (clearBus s).handovers = s.handovers) ∧
    (¬moving → (clearBus s).fdc.settleOwed = false ∧ (clearBus s).handovers = s.handovers ++ [.bssSettled]) := by
  intro moving
  rw [clearBus_eq]
  generalize before : ({ s with fdc.clearFlag := true, fdc.settleOwed := true } : State) = b
  have rows : ∀ f, ((forAll 16 tripIfClosed b).feederRec f).clearing =
      if (s.feederRec f).state = .closed then (.tripping, some .blackstart) else (s.feederRec f).clearing := fun f => by
    have row := forAll_rows tripIfClosed (fun t i => (t.feederRec i).clearing) (fun t => t.sst.mode = .run)
      (fun _ r => if r.1 = .closed then (.tripping, some .blackstart) else r)
      (fun i t here => by
        have kept := congrArg (fun o => o.2.2.2.mode) (tripIfClosed_besideFeeders i t)
        exact kept.trans here)
      (fun i t here => tripIfClosed_self here) (fun i j t other => tripIfClosed_other other)
      (s := b) (by rw [← before]; exact run) f
    rw [row, ← before]; rfl
  have beside : (forAll 16 tripIfClosed b).besideFeeders = (true, true, s.handovers, s.sst) := by
    rw [forAll_keeps tripIfClosed State.besideFeeders tripIfClosed_besideFeeders b, ← before]; rfl
  generalize forAll 16 tripIfClosed b = t at rows beside
  simp only [State.besideFeeders, Prod.mk.injEq] at beside
  obtain ⟨flag, owed, handovers, sst⟩ := beside
  have same : (∃ f, t.feederInstalled f = true ∧
      ((t.feederRec f).state = .tripping ∨ (t.feederRec f).state = .closing)) ↔ moving := by
    refine exists_congr fun f => and_congr (by rw [feederInstalled_congr (congrArg Sst.image sst)]) ?_
    have state := congrArg Prod.fst (rows f)
    change (t.feederRec f).state = _ at state
    rw [state]
    by_cases closed : (s.feederRec f).state = .closed
    · simp [closed]
    · simp [closed, FeederRec.clearing]
  rw [settleClear_eq]
  by_cases moves : moving
  · rw [if_neg fun h => h.2 (same.2 moves)]
    exact ⟨flag, rows, fun _ => ⟨owed, handovers⟩, fun h => absurd moves h⟩
  · rw [if_pos ⟨owed, mt same.1 moves⟩]
    exact ⟨flag, rows, fun h => absurd h moves, fun _ => ⟨rfl, by rw [← handovers]; rfl⟩⟩

/-- Settles O55: BLACKSTART, the entry to CLEARING and each of its actions. -/
theorem blackstartTableAndClearing : Obligations.BlackstartTableAndClearing := by
  refine ⟨fun s tag b ht => ?_, enterClearing_eq, fun _ _ => rfl, fun s => ⟨fun set => if_pos set, setForcedZero_get s⟩,
    fun s g => ⟨withdrawSets_state s g, stopAllSets_state s g⟩, fun s run => ?_⟩
  · have act := blackstartAct_eq (s := s.taken) (b := b)
    refine ⟨fun above => ?_, fun known off => ?_, fun known run other => ?_, fun run failed => ⟨fun retry => ?_, fun abandon => ?_⟩⟩
    · exact exec_blackstart_refused (st := .range) ht fun reply => (act reply).trans (if_pos above)
    · exact exec_blackstart_refused (st := .mode) ht fun reply =>
        (act reply).trans ((if_neg (Nat.not_lt.2 known)).trans (if_pos off))
    · exact exec_blackstart_refused (st := .state) ht fun reply =>
        (act reply).trans ((if_neg (Nat.not_lt.2 known)).trans ((if_neg (Classical.not_not.2 run)).trans (if_pos other)))
    · have notAbove : ¬1 < b.toNat := by rw [retry]; decide
      exact exec_blackstart_taken ht fun reply => (act reply).trans
        ((if_neg notAbove).trans ((if_neg (Classical.not_not.2 run)).trans ((if_neg (Classical.not_not.2 failed)).trans (if_pos retry))))
    · intro lifted
      have given : lifted = liftForcedZero s.taken := (liftForcedZero_eq s.taken).symm
      have notAbove : ¬1 < b.toNat := by rw [abandon]; decide
      have notRetry : ¬b = 0 := by rw [abandon]; decide
      rw [given]
      have taken := exec_blackstart_taken ht fun reply => (act reply).trans
        ((if_neg notAbove).trans ((if_neg (Classical.not_not.2 run)).trans ((if_neg (Classical.not_not.2 failed)).trans (if_neg notRetry))))
      rw [abandonProgram_eq] at taken
      exact taken
  · obtain ⟨flag, rows, moves, settles⟩ := clearBus_run run
    refine ⟨flag, fun f => ⟨?_, fun closed => ?_⟩, moves, settles⟩
    · rw [← FeederRec.clearing_fst, rows]
      split <;> rfl
    · rw [← FeederRec.clearing_snd, rows, if_pos closed]

end Sys2Proof.Machine

/-!
SUPPORT. BSS: the rebuild of the restore queue, the first set and the grant, the abort (R142, R149 to R153, R160, R162).
-/
namespace Sys2Proof.Machine

/-! ### The rebuild (R142) -/

/-- The order of the rebuilt queue: restore_rank, ties in ascending number. -/
def State.ranksBefore (s : State) (a b : Fin 16) : Prop :=
  s.feederRank a < s.feederRank b ∨ s.feederRank a = s.feederRank b ∧ a < b

theorem ranksBefore_trans {s : State} {a b c : Fin 16} (ab : s.ranksBefore a b) (bc : s.ranksBefore b c) :
    s.ranksBefore a c := by
  unfold State.ranksBefore at *; omega

theorem insertRanked_sorted {s : State} {f : Fin 16} {l : List (Fin 16)} (sorted : l.Pairwise s.ranksBefore)
    (fresh : f ∉ l) : (s.insertRanked f l).Pairwise s.ranksBefore := by
  induction l with
  | nil => exact List.pairwise_singleton ..
  | cons g l ih =>
    obtain ⟨before, sorted'⟩ := List.pairwise_cons.1 sorted
    have other : f ≠ g := fun same => fresh (same ▸ List.mem_cons_self)
    have fresh' : f ∉ l := fun mem => fresh (List.mem_cons_of_mem _ mem)
    rw [State.insertRanked]
    split
    · next first =>
      have fg : s.ranksBefore f g := first.imp id fun ⟨same, le⟩ => ⟨same, Nat.lt_of_le_of_ne le fun same => other (Fin.ext same)⟩
      refine List.pairwise_cons.2 ⟨fun h hh => ?_, sorted⟩
      rcases List.mem_cons.1 hh with rfl | hh
      · exact fg
      · exact ranksBefore_trans fg (before h hh)
    · next last =>
      have gf : s.ranksBefore g f := by unfold State.ranksBefore; omega
      refine List.pairwise_cons.2 ⟨fun h hh => ?_, ih sorted' fresh'⟩
      rcases List.mem_cons.1 ((Quiet.insertRanked_perm s f l).mem_iff.1 hh) with rfl | hh
      · exact gf
      · exact before h hh

theorem rebuiltQueue_sorted (s : State) : s.rebuiltQueue.Pairwise s.ranksBefore := by
  have key : ∀ l : List (Fin 16), l.Nodup → (l.foldr s.insertRanked []).Pairwise s.ranksBefore := by
    intro l nodup
    induction l with
    | nil => exact List.Pairwise.nil
    | cons f l ih =>
      obtain ⟨fresh, nodup⟩ := List.nodup_cons.1 nodup
      exact insertRanked_sorted (ih nodup) fun h => fresh ((Quiet.foldr_insertRanked_perm s l).mem_iff.1 h)
  exact key _ ((List.nodup_finRange 16).filter _)

/-- What a rebuild keeps of a feeder, beside its state. -/
theorem joinShed_preShed (q : List (Fin 16)) (i f : Fin 16) (s : State) :
    ((joinShed q i s).feederRec f).preShed = (s.feederRec f).preShed := by
  unfold joinShed
  split
  · by_cases e : i = f
    · subst e
      rw [moveFeeder_self]; split <;> rfl
    · rw [moveFeeder_other i f _ s e]
  · rfl

theorem joinShed_besideFeeders (q : List (Fin 16)) (i : Fin 16) (s : State) :
    (joinShed q i s).besideFeeders = s.besideFeeders := by
  unfold joinShed
  split
  · exact moveFeeder_besideFeeders i .openShed s
  · rfl

theorem fdcEvent_preShed (e : State → State) (s : State) (f : Fin 16) :
    ((fdcEvent e s).feederRec f).preShed = ((e s).feederRec f).preShed := by
  rw [fdcEvent_row]; split <;> rfl

/-- The rebuilt rows: who joins OPEN_SHED, and the pre-shed loads kept (R142). -/
theorem rebuildQueue_rows (s : State) (f : Fin 16) :
    ((rebuildQueue s).feederRec f).state = (if f ∈ s.rebuiltQueue then .openShed else (s.feederRec f).state) ∧
    ((rebuildQueue s).feederRec f).preShed = (s.feederRec f).preShed := by
  rw [rebuildQueue_eq, fdcEvent_state, fdcEvent_preShed]
  rw [notify_feederRec]
  refine ⟨(forAll_joinShed_state s.rebuiltQueue _ f).trans rfl, ?_⟩
  exact (forAll_keeps (joinShed s.rebuiltQueue) (fun t => (t.feederRec f).preShed)
    (fun i t => joinShed_preShed s.rebuiltQueue i f t) _).trans rfl

theorem rebuildQueue_queue (s : State) :
    (rebuildQueue s).fdc.queue = s.rebuiltQueue ∧ (rebuildQueue s).fdc.clearFlag = false := by
  rw [rebuildQueue_eq]
  unfold fdcEvent; dsimp only
  rw [notify_fdc]
  refine ⟨rfl, ?_⟩
  have beside := forAll_keeps (joinShed s.rebuiltQueue) State.besideFeeders (joinShed_besideFeeders s.rebuiltQueue)
    { s with fdc.clearFlag := false }
  exact congrArg Prod.fst beside

/-! ### The first set (R150, R151) -/

theorem notifyProgram_match (cause : Cause) (s : State) : notifyProgram cause s = notify .blackstart
    (match s.bss.firstSet, s.bss.holder with
      | some g, _ => g.val + 1 | none, some g => g.val + 1 | none, none => 0)
    [sField s.bss.program.code, BitVec.ofNat 32 s.bss.restarts, sField cause.code] s := by
  rw [notifyProgram_eq]; rfl

theorem grantOrder_eq (s : State) : s.grantOrder =
    s.meritList ++ (List.finRange 6).filter fun g => decide (g ∉ s.meritList) := by
  unfold State.grantOrder
  congr 2
  funext g
  by_cases h : g ∈ s.meritList <;> simp [h]

theorem grantable_iff (s : State) (st : SetState) (g : Fin 6) : s.grantable st g = true ↔
    s.setInstalled g = true ∧ (s.setRec g).outOfService = false ∧ s.setCapable g = true ∧
      s.bss.tried.get g = false ∧ (s.setRec g).state = st := by
  simp only [State.grantable, Bool.and_eq_true, Bool.not_eq_true', decide_eq_true_eq, and_assoc]

theorem find?_split {α : Type} {p : α → Bool} {l pre post : List α} {a : α} (parts : l = pre ++ a :: post)
    (own : p a = true) (before : ∀ b ∈ pre, ¬p b = true) : l.find? p = some a :=
  List.find?_eq_some_iff_append.2 ⟨own, pre, post, parts, fun b hb => by simpa using before b hb⟩

section
variable {s : State} (note : State → State)

theorem firstOnline_some {g : Fin 6} (online : (s.setRec g).state = .online)
    (first : ∀ h < g, (s.setRec h).state ≠ .online) : s.firstOnline = some g :=
  find?_finRange (decide_eq_true online) fun h less => decide_eq_false (first h less)

theorem firstOnline_none (none_ : ∀ g, (s.setRec g).state ≠ .online) : s.firstOnline = none :=
  List.find?_eq_none.2 fun g _ h => none_ g (of_decide_eq_true h)

theorem selectFirst_online {g : Fin 6} (online : (s.setRec g).state = .online)
    (first : ∀ h < g, (s.setRec h).state ≠ .online) : selectFirst note s = enterEnergizing g (note s) := by
  unfold selectFirst; rw [firstOnline_some online first]

variable (none_ : ∀ g, (s.setRec g).state ≠ .online)
include none_

theorem selectFirst_granted {g : Fin 6} {round : SetState} (selection : s.grantSelection = some (g, round)) :
    selectFirst note s = announceGrant g round (note (grantTo g s)) := by
  unfold selectFirst; rw [firstOnline_none none_, selection]

theorem selectFirst_failed (selection : s.grantSelection = none) :
    selectFirst note s = enterFailed .noCandidate (note s) := by
  unfold selectFirst; rw [firstOnline_none none_, selection]

end

theorem grantSelection_runUp {s : State} {g : Fin 6} (found : s.grantOrder.find? (s.grantable .runUp) = some g) :
    s.grantSelection = some (g, .runUp) := by
  unfold State.grantSelection; rw [found]

theorem grantSelection_standby {s : State} (none_ : ∀ g, ¬s.grantable .runUp g = true) :
    s.grantSelection = (s.grantOrder.find? (s.grantable .standby)).map fun g => (g, .standby) := by
  unfold State.grantSelection
  rw [List.find?_eq_none.2 fun g _ => none_ g]

theorem enterEnergizing_eq (s : State) (g : Fin 6) : enterEnergizing g s =
    notify .blackstart (g.val + 1) [3, BitVec.ofNat 32 s.bss.restarts, 2]
      { s with bss := ⟨.energizing, none, s.bss.restarts, s.bss.tried, none, some g, none, none, none,
          some (s.dueIn (s.sysNat Sys.firstCloseTime)), none⟩ } := by
  unfold enterEnergizing; dsimp only
  rw [notifyProgram_eq]; rfl

/-! ### The grant's withdrawal (R152) -/

theorem withdraws_iff (st : SetState) :
    withdraws st = true ↔ st ∈ ([.lockout, .unavailable, .standby, .stopping] : List SetState) := by
  cases st <;> decide

theorem withdrawGrant_eq {s : State} {g : Fin 6} (holder : s.bss.holder = some g) (cause : Int) :
    withdrawGrant cause s = selectFirst id (notify .blackstart (g.val + 1) [17, sField cause]
      { s with bss.holder := none, bss.firstCloseTimer := none }) := by
  unfold withdrawGrant; rw [holder]; rfl

section
variable {s : State} {g : Fin 6} {old new : SetState}

theorem setMoved_first (first : s.bss.program = .first) : setMoved g old new s =
    if new = .online then enterEnergizing g s
    else if s.bss.holder = some g ∧ withdraws new = true then withdrawGrant new.code s
    else s := by
  unfold setMoved; rw [first]
  exact ite_congr_iff Iff.rfl rfl (ite_congr_iff (by simp) rfl rfl)

theorem setMoved_energizing (energizing : s.bss.program = .energizing) : setMoved g old new s =
    if s.bss.firstSet = some g ∧ old = .online then firstLost s else s := by
  unfold setMoved; rw [energizing]
  exact ite_congr_iff (by simp) rfl rfl

theorem setMoved_other (notFirst : s.bss.program ≠ .first) (notEnergizing : s.bss.program ≠ .energizing) :
    setMoved g old new s = s := by
  unfold setMoved
  split
  · next h => exact absurd h notFirst
  · next h => exact absurd h notEnergizing
  all_goals rfl

end

/-! ### The abort (R160) -/

/-- A notice is queued beside the registers of BSS. -/
theorem notify_withBss (k : NoticeKind) (n : Nat) (vs : List Word) (d : Bss) (s : State) :
    notify k n vs { s with bss := d } = { notify k n vs s with bss := d } := by
  unfold notify; dsimp only; split <;> rfl

theorem abortProgram_idle {s : State} (idle : s.bss.program = .idle) : abortProgram s = s := if_pos idle

/-- The state that an abort leaves, before its notices. -/
def State.programEnded (s : State) : State :=
  { s with bss := ⟨.idle, none, s.bss.restarts, s.bss.tried, none, s.bss.firstSet, none, none, none, none, none⟩ }

theorem abortProgram_eq {s : State} (runs : s.bss.program ≠ .idle) : abortProgram s =
    clearForcedZero (notify .blackstart s.bssSubject [0, BitVec.ofNat 32 s.bss.restarts, 13]
      (match s.bss.holder with
        | none => s.programEnded
        | some g => notify .blackstart (g.val + 1) [17, sField (s.setRec g).state.code] s.programEnded)) := by
  refine (if_neg runs).trans ?_
  unfold announceAbort
  cases holder : s.bss.holder with
  | none =>
    dsimp only
    rw [notifyProgramOf, sField_natCast]; rfl
  | some g =>
    dsimp only
    have ended := notify_withBss .blackstart (g.val + 1) [17, sField (s.setRec g).state.code] s.programEnded.bss s
    have bss : (notifyWithdrawn g (s.setRec g).state.code s).bss = s.bss := notify_bss ..
    rw [notifyProgramOf, sField_natCast, bss]
    exact congrArg (fun x => clearForcedZero (notify .blackstart s.bssSubject [0, BitVec.ofNat 32 s.bss.restarts, 13] x))
      ended.symm

theorem advanceTo_bss (due : Tick) (s : State) : (advanceTo due s).bss = s.bss := by
  unfold advanceTo; split <;> rfl

/-- Settles O56: the settlement and the rebuild, the selection, the withdrawal, the loss of the first set, the abort. -/
theorem firstSetAndGrant : Obligations.FirstSetAndGrant := by
  refine ⟨fun s => ⟨fun h => if_neg h, fun h => if_pos h⟩, fun s => ?_, fun _ _ => rfl, notifyProgram_match, fun note s => ?_,
    enterEnergizing_eq, fun _ _ => rfl, fun s g old new => ?_, fun s => ?_, fun s calm => ?_⟩
  · intro t waits
    obtain ⟨queue, flag⟩ := rebuildQueue_queue s
    have named : ∀ f, f ∈ s.rebuiltQueue ↔ waits f := fun f => (mem_rebuiltQueue s f).trans and_assoc
    refine ⟨flag, fun f => by rw [queue]; exact named f, by rw [queue]; exact rebuiltQueue_sorted s, fun f => ?_⟩
    obtain ⟨state, load⟩ := rebuildQueue_rows s f
    exact ⟨fun h => state.trans (if_pos ((named f).2 h)), fun h => state.trans (if_neg (mt (named f).1 h)), load⟩
  · intro order candidate granted
    have inOrder : s.grantOrder = order := grantOrder_eq s
    have fits : ∀ st g, s.grantable st g = true ↔ candidate st g := fun st g => grantable_iff s st g
    refine ⟨fun g online first => selectFirst_online note online first, fun none_ => ⟨fun pre g post parts own before => ?_,
      fun noneRuns => ⟨fun pre g post parts own before => ?_, fun noneStands => ?_⟩⟩⟩
    · have found := find?_split (inOrder.trans parts) ((fits .runUp g).2 own) fun h hh => mt (fits .runUp h).1 (before h hh)
      exact selectFirst_granted note none_ (grantSelection_runUp found)
    · have found := find?_split (inOrder.trans parts) ((fits .standby g).2 own) fun h hh => mt (fits .standby h).1 (before h hh)
      have selection := grantSelection_standby fun g => mt (fits .runUp g).1 (noneRuns g)
      rw [found] at selection
      exact selectFirst_granted note none_ selection
    · have selection := grantSelection_standby fun g => mt (fits .runUp g).1 (noneRuns g)
      rw [List.find?_eq_none.2 fun g _ => mt (fits .standby g).1 (noneStands g)] at selection
      exact selectFirst_failed note none_ selection
  · intro withdrawn
    refine ⟨fun first online => ?_, fun first holder leaves => ?_, fun first other stays => ?_,
      fun energizing own left => ⟨fun h online least => ?_, fun none_ => ?_⟩, fun energizing other => ?_, setMoved_other⟩
    · exact (setMoved_first first).trans (if_pos online)
    · have notOnline : new ≠ .online := by rintro rfl; exact absurd leaves (by decide)
      rw [setMoved_first first, if_neg notOnline, if_pos ⟨holder, (withdraws_iff new).2 leaves⟩]
      exact withdrawGrant_eq holder _
    · rw [setMoved_first first, if_neg other]
      exact if_neg fun ⟨holder, leaves⟩ => stays.elim (fun h => h holder) fun h => h ((withdraws_iff new).1 leaves)
    · rw [setMoved_energizing energizing, if_pos ⟨own, left⟩]
      unfold firstLost; dsimp only
      rw [firstOnline_some (s := { s with bss.energizeTimer := none }) online least]
    · rw [setMoved_energizing energizing, if_pos ⟨own, left⟩]
      unfold firstLost; dsimp only
      rw [firstOnline_none (s := { s with bss.energizeTimer := none }) none_]
    · rw [setMoved_energizing energizing]
      exact if_neg fun ⟨own, left⟩ => other.elim (fun h => h own) fun h => h left
  · intro stopped ended first
    refine ⟨abortProgram_idle, fun runs none_ => ?_, fun g runs holder => ?_⟩
    · rw [abortProgram_eq runs, none_]
      have subject : s.bssSubject = first := by
        unfold State.bssSubject; rw [none_]
        dsimp only [first]
        cases s.bss.firstSet <;> rfl
      rw [subject]; rfl
    · rw [abortProgram_eq runs, holder]
      have subject : s.bssSubject = if s.bss.firstSet = none then g.val + 1 else first := by
        unfold State.bssSubject; rw [holder]
        dsimp only [first]
        cases s.bss.firstSet <;> rfl
      rw [subject]; rfl
  · refine ⟨fun idle => ?_, fun due g runs first holder => ?_⟩
    · show Host.Outcome.next (takeEvent (expire s.bss.firstCloseTimer _) s) = _
      rw [idle, takeEvent_high _ _ calm.1, expire_idle]
      exact congrArg Host.Outcome.next (cascade_of_idle calm.2)
    · intro a
      have bss : a.bss = s.bss := advanceTo_bss due s
      show Host.Outcome.next (takeEvent (expire s.bss.firstCloseTimer _) s) = _
      rw [runs, takeEvent_high _ _ calm.1, expire_running, firstCloseExpired, if_pos (by rw [bss]; exact first),
        withdrawGrant_eq (by rw [bss]; exact holder)]
      rfl

end Sys2Proof.Machine

/-!
SUPPORT. BSS: ENERGIZING and RESTORING, the second collapse and the finish (R153 to R158).
-/
namespace Sys2Proof.Machine

/-! ### The end of a pass (R153, R154) -/

theorem busStands_iff (s : State) : s.busStands = true ↔ ∃ f, s.ben.record.f = some f ∧ s.sys Sys.restoreFMin ≤ f := by
  unfold State.busStands
  cases s.ben.record.f with
  | none => simp
  | some f => simp

section
variable {s : State}

theorem bssPass_energizing (energizing : s.bss.program = .energizing) : bssPass s = energizePass s := by
  unfold bssPass; rw [energizing]

theorem bssPass_restoring (restoring : s.bss.program = .restoring) : bssPass s =
    if s.bss.phase = some .wait ∧ s.ben.record.kind = .period then restoreDecision s else s := by
  unfold bssPass; rw [restoring]
  exact ite_congr_iff (by simp) rfl rfl

theorem bssPass_other (notEnergizing : s.bss.program ≠ .energizing) (notRestoring : s.bss.program ≠ .restoring) :
    bssPass s = s := by
  unfold bssPass
  split
  · next h => exact absurd h notEnergizing
  · next h => exact absurd h notRestoring
  all_goals rfl

theorem busDied_eq : busDied s =
    if s.bss.program = .energizing ∨ s.bss.program = .restoring then collapse .collapse s else s :=
  ite_congr_iff (by simp) rfl rfl

/-- The energize timer at a pass: it runs while the bus stands at or above restore_f_min (R153). -/
theorem energizePass_eq : energizePass s =
    if s.ben.record.kind = .period ∧ s.busStands = true then
      (if s.bss.energizeTimer = none then
        { s with bss.energizeTimer := some (s.dueIn (s.sysNat Sys.energizeTime)) } else s)
    else { s with bss.energizeTimer := none } := by
  refine ite_congr_iff (by simp) ?_ rfl
  cases timer : s.bss.energizeTimer with
  | none => exact (if_pos rfl).symm
  | some due => exact (if_neg (by simp)).symm

theorem restoreDecision_empty (empty : s.fdc.queue = []) : restoreDecision s = finish .queueEmpty s := by
  unfold restoreDecision; rw [empty]

theorem restoreDecision_fits {f : Fin 16} {rest : List (Fin 16)} (queue : s.fdc.queue = f :: rest)
    (stands : s.busStands = true) (fits : s.need f + s.sys Sys.restoreMargin ≤ s.headroom) :
    restoreDecision s = closeHead f s := by
  unfold restoreDecision; rw [queue]
  exact if_pos (by rw [stands]; exact decide_eq_true fits)

theorem restoreDecision_waits {f : Fin 16} {rest : List (Fin 16)} (queue : s.fdc.queue = f :: rest)
    (waits : ¬(s.busStands = true ∧ s.need f + s.sys Sys.restoreMargin ≤ s.headroom)) :
    restoreDecision s = match s.startSelection with
      | some g => startForHeadroom g s
      | none => finish .queueRemaining s := by
  unfold restoreDecision; rw [queue]
  exact if_neg (by simpa [State.fits] using waits)

end

/-! ### The second collapse and the finish (R157, R158) -/

theorem collapse_eq (cause : Cause) (s : State) : collapse cause s =
    if 3 < s.bss.restarts + 1 then
      enterFailed cause { s with bss := ⟨s.bss.program, none, s.bss.restarts + 1, s.bss.tried, s.bss.holder,
        none, none, none, none, none, none⟩ }
    else enterClearing cause { s with bss := ⟨s.bss.program, none, s.bss.restarts + 1, s.bss.tried, s.bss.holder,
      none, none, none, none, none, none⟩ } := rfl

theorem finish_eq (cause : Cause) (s : State) : finish cause s =
    emit (.complete .bss 0 .done) (notifyProgram cause { liftForcedZero s with
      bss := ⟨.idle, none, s.bss.restarts, s.bss.tried, s.bss.holder, s.bss.firstSet, none, none, none,
        none, none⟩ }) := by
  unfold finish; dsimp only
  rw [liftForcedZero_bss]; rfl

/-! ### The ends that are awaited, and the timers (R153, R155, R156) -/

theorem closeEnded_eq (f : Fin 16) (s : State) : closeEnded f s =
    if s.bss.program = .restoring ∧ s.bss.phase = some .close ∧ s.bss.awaited = some (.feeder f) then { s with
      bss.awaited := none, bss.phase := some .settle
      bss.settleTimer := some (s.dueIn (s.sysNat Sys.settleTime)) }
    else s := ite_congr_iff (by simp [and_assoc]) rfl rfl

theorem startEnded_eq (g : Fin 6) (ok : Bool) (s : State) : startEnded g ok s =
    if s.bss.program = .restoring ∧ s.bss.phase = some .start ∧ s.bss.awaited = some (.set g) then
      (if ok = true then { s with bss.awaited := none, bss.phase := some .wait }
        else finish .startFailed { s with bss.awaited := none })
    else s := ite_congr_iff (by simp [and_assoc]) rfl rfl

/-- The expiry of an idle timer changes nothing. -/
theorem takeEvent_expire_none {s : State} (calm : s.calm) (f : State → State) :
    (.next (takeEvent (expire none f) s) : Answer) = .next s := by
  rw [takeEvent_high _ _ calm.1, expire_idle]
  exact congrArg Host.Outcome.next (cascade_of_idle calm.2)

/-- The expiry of a timer that runs acts at its due time, with its cascade. -/
theorem takeEvent_expire_some {s : State} (calm : s.calm) (due : Tick) (f : State → State) :
    (.next (takeEvent (expire (some due) f) s) : Answer) = .next (cascade (f (advanceTo due s))) := by
  rw [takeEvent_high _ _ calm.1, expire_running]; rfl

/-- Settles O57: the end of a pass, the collapse, the finish, the awaited ends, the timers. -/
theorem energizeRestoreAndCollapse : Obligations.EnergizeRestoreAndCollapse := by
  refine ⟨fun s => ?_, fun cause s => ?_, fun cause s => ?_, fun s f => ?_, fun s g => ?_, fun s calm => ?_⟩
  · intro good
    have stands : good ↔ s.ben.record.kind = .period ∧ s.busStands = true := by
      rw [busStands_iff]
      exact ⟨fun ⟨f, kind, here⟩ => ⟨kind, f, here⟩, fun ⟨kind, f, here⟩ => ⟨f, kind, here⟩⟩
    refine ⟨fun energizing here idle => ?_, fun energizing here runs => ?_, fun energizing away => ?_,
      fun restoring wait period => ⟨fun empty => ?_, fun f rest queue => ?_⟩, fun restoring other => ?_,
      fun notEnergizing notRestoring => ⟨bssPass_other notEnergizing notRestoring, ?_⟩, fun either => ?_⟩
    · rw [bssPass_energizing energizing, energizePass_eq, if_pos (stands.1 here), if_pos idle]
    · rw [bssPass_energizing energizing, energizePass_eq, if_pos (stands.1 here), if_neg runs]
    · rw [bssPass_energizing energizing, energizePass_eq, if_neg (mt stands.2 away)]
    · rw [bssPass_restoring restoring, if_pos ⟨wait, period⟩, restoreDecision_empty empty]
    · intro fits
      have decides : bssPass s = restoreDecision s := by rw [bssPass_restoring restoring, if_pos ⟨wait, period⟩]
      rw [decides]
      refine ⟨fun ⟨here, room⟩ => restoreDecision_fits queue (stands.1 here).2 room, fun not => ?_⟩
      have waits := restoreDecision_waits queue fun ⟨here, room⟩ => not ⟨stands.2 ⟨period, here⟩, room⟩
      refine ⟨fun g chosen => ?_, fun none_ => ?_⟩
      · rw [waits, chosen]; rfl
      · rw [waits, none_]
    · rw [bssPass_restoring restoring]
      exact if_neg fun ⟨wait, period⟩ => other.elim (fun h => h wait) fun h => h period
    · rw [busDied_eq]
      exact if_neg fun h => h.elim notEnergizing notRestoring
    · exact busDied_eq.trans (if_pos either)
  · intro b
    exact ⟨fun few => (collapse_eq cause s).trans (if_neg (by omega)), fun many => (collapse_eq cause s).trans (if_pos (by omega))⟩
  · intro lifted
    have given : lifted = liftForcedZero s := (liftForcedZero_eq s).symm
    rw [given]; exact finish_eq cause s
  · intro waits
    exact ⟨fun h => (closeEnded_eq f s).trans (if_neg h), fun h => (closeEnded_eq f s).trans (if_pos h)⟩
  · intro waits
    exact ⟨fun h ok => (startEnded_eq g ok s).trans (if_neg h), fun h =>
      ⟨(startEnded_eq g true s).trans (if_pos h), (startEnded_eq g false s).trans (if_pos h)⟩⟩
  · refine ⟨fun idle => ?_, fun idle => ?_, fun idle => ?_, fun due => ?_⟩
    · show Host.Outcome.next (takeEvent (expire s.bss.energizeTimer _) s) = _
      rw [idle]; exact takeEvent_expire_none calm _
    · show Host.Outcome.next (takeEvent (expire s.bss.limitTimer _) s) = _
      rw [idle]; exact takeEvent_expire_none calm _
    · show Host.Outcome.next (takeEvent (expire s.bss.settleTimer _) s) = _
      rw [idle]; exact takeEvent_expire_none calm _
    · intro a
      have bss : a.bss = s.bss := advanceTo_bss due s
      have idle : a.handovers = [] := (advanceTo_handovers due s).trans calm.2
      refine ⟨fun runs energizing => ?_, fun runs energizing => ?_, fun runs settle => ?_⟩
      · show Host.Outcome.next (takeEvent (expire s.bss.energizeTimer _) s) = _
        rw [runs, takeEvent_expire_some calm, energizeExpired, if_pos (by rw [bss]; exact energizing), bss]
        refine congrArg Host.Outcome.next (cascade_of_idle ?_)
        rw [notifyProgram_eq, notify_handovers]; exact idle
      · show Host.Outcome.next (takeEvent (expire s.bss.limitTimer _) s) = _
        rw [runs, takeEvent_expire_some calm, limitExpired, if_pos (by rw [bss]; exact energizing)]
      · show Host.Outcome.next (takeEvent (expire s.bss.settleTimer _) s) = _
        rw [runs, takeEvent_expire_some calm, settleExpired, if_pos (by rw [bss]; exact settle)]
        exact congrArg Host.Outcome.next (cascade_of_idle idle)

end Sys2Proof.Machine

/-!
SUPPORT. Notices told one after another, and the sample link: bus records, POWER frames, the two timers (R3 to R17).
-/
namespace Sys2Proof.Machine

/-! ### Notices told one after another (R188) -/

/-- A notice before it is queued: its kind, subject and values. -/
abbrev Told := NoticeKind × Nat × List Word

def notifyAll (ns : List Told) (s : State) : State := ns.foldl (fun s n => notify n.1 n.2.1 n.2.2 s) s

theorem notifyAll_append (as bs : List Told) (s : State) : notifyAll (as ++ bs) s = notifyAll bs (notifyAll as s) :=
  List.foldl_append

/-- Notices past the room that the FIFO leaves are dropped. -/
theorem notifyAll_eq (ns : List Told) (s : State) : notifyAll ns s = { s with
    hlc.notices := s.hlc.notices ++ (ns.map fun n => ⟨n.1, s.tick, n.2.1, n.2.2⟩).take (32 - s.hlc.notices.length)
    hlc.lost := s.hlc.lost || decide (32 - s.hlc.notices.length < ns.length) } := by
  induction ns generalizing s with
  | nil => simp [notifyAll]
  | cons n ns ih =>
    change notifyAll ns (notify n.1 n.2.1 n.2.2 s) = _
    rw [ih]
    unfold notify
    split
    · next room =>
      change s.hlc.notices.length < 32 at room
      obtain ⟨k, hk⟩ : ∃ k, 32 - s.hlc.notices.length = k + 1 := ⟨31 - s.hlc.notices.length, by omega⟩
      have less : 32 - (s.hlc.notices.length + 1) = k := by omega
      simp only [List.length_append, List.length_cons, List.length_nil, Nat.zero_add, hk, less, List.map_cons,
        List.take_succ_cons, List.append_assoc, List.cons_append, List.nil_append, Nat.add_lt_add_iff_right]
    · next full =>
      have none_ : 32 - s.hlc.notices.length = 0 := Nat.sub_eq_zero_of_le (Nat.le_of_not_lt full)
      simp [none_]

/-- The notice of one change, queued or not. -/
theorem notifyAll_if (c : Prop) [Decidable c] (n : Told) (s : State) :
    notifyAll (if c then [n] else []) s = if c then notify n.1 n.2.1 n.2.2 s else s := by
  split <;> rfl

section
variable (ns : List Told) (s : State)

theorem notifyAll_withSrx (d : Srx) : notifyAll ns { s with srx := d } = { notifyAll ns s with srx := d } := by
  rw [notifyAll_eq, notifyAll_eq]

end

/-! ### The judgements reported (R8) -/

/-- Whether the judgement of a reported head differs from the one in `old`. -/
def State.headChanged (s : State) (old : Tab 31 HeadEntry) (h : Fin 31) : Bool :=
  s.headReported h && (old.get h).judgement != (s.srx.heads.get h).judgement

/-- The UNIT notice of a head. -/
def State.headTold (s : State) (h : Fin 31) : Told :=
  (.unit, h.val, [if (s.srx.heads.get h).judgement = .fresh then 0 else 1,
    BitVec.ofNat 32 (s.srx.heads.get h).framesSince])

/-- The UNIT notices of a change of the table, in ascending head number. -/
def State.judged (s : State) (old : Tab 31 HeadEntry) : List Told :=
  ((List.finRange 31).filter (s.headChanged old)).map s.headTold

/-- One head's part in the notices of a change of the table. -/
def tellHead (old : Tab 31 HeadEntry) (h : Fin 31) (s : State) : State :=
  if s.headChanged old h then notifyHead h s else s

theorem notifyHead_eq (h : Fin 31) (s : State) :
    notifyHead h s = notify (s.headTold h).1 (s.headTold h).2.1 (s.headTold h).2.2 s := by
  unfold notifyHead State.headTold
  dsimp only
  rw [sField_natCast]
  cases (s.srx.heads.get h).judgement <;> rfl

theorem notifyAll_headChanged (ns : List Told) (s : State) : (notifyAll ns s).headChanged = s.headChanged := by
  rw [notifyAll_eq]; rfl

theorem notifyAll_headTold (ns : List Told) (s : State) : (notifyAll ns s).headTold = s.headTold := by
  rw [notifyAll_eq]; rfl

theorem tellHead_eq (old : Tab 31 HeadEntry) (h : Fin 31) (s : State) :
    tellHead old h s = notifyAll (if s.headChanged old h then [s.headTold h] else []) s := by
  rw [notifyAll_if, ← notifyHead_eq]; rfl

theorem reportJudgements_eq (old : Tab 31 HeadEntry) (s : State) :
    reportJudgements old s = notifyAll (s.judged old) s := by
  have key : ∀ (l : List (Fin 31)) (s : State), l.foldl (fun s h => tellHead old h s) s =
      notifyAll ((l.filter (s.headChanged old)).map s.headTold) s := by
    intro l
    induction l with
    | nil => exact fun _ => rfl
    | cons h l ih =>
      intro s
      rw [List.foldl_cons, ih, tellHead_eq, notifyAll_headChanged, notifyAll_headTold, ← notifyAll_append,
        List.filter_cons]
      split <;> rfl
  exact key _ s

theorem filter_finRange (h : Fin 31) : (List.finRange 31).filter (fun i => decide (i = h)) = [h] := by
  revert h; decide

/-- Only one head is reported where only its row changes. -/
theorem judged_put (s : State) (old : Tab 31 HeadEntry) (h : Fin 31) (e : HeadEntry) (heads : s.srx.heads = old.put h e) :
    s.judged old = if s.headReported h = true ∧ (old.get h).judgement ≠ e.judgement then
      [(.unit, h.val, [if e.judgement = .fresh then 0 else 1, BitVec.ofNat 32 e.framesSince])] else [] := by
  have one := filter_finRange h
  have own : s.srx.heads.get h = e := by rw [heads, Tab.get_put_self]
  have changed : s.headChanged old = fun i => decide (i = h) && s.headChanged old h := by
    funext i
    by_cases same : i = h
    · subst same; simp
    · have unmoved : s.srx.heads.get i = old.get i := by rw [heads, Tab.get_put_ne _ _ _ _ (Ne.symm same)]
      simp [State.headChanged, unmoved, same]
  unfold State.judged
  rw [changed, show s.headChanged old h = (s.headReported h && (old.get h).judgement != e.judgement) by
    unfold State.headChanged; rw [own]]
  split
  · next c =>
    have yes : (s.headReported h && (old.get h).judgement != e.judgement) = true := by simpa using c
    simp only [yes, Bool.and_true, one, List.map_cons, List.map_nil, State.headTold, own]
  · next c =>
    have no : (s.headReported h && (old.get h).judgement != e.judgement) = false := by simpa using c
    simp only [no, Bool.and_false]
    rw [List.filter_eq_nil_iff.2 fun _ _ => Bool.false_ne_true, List.map_nil]

/-! ### Bus records (R7 to R14) -/

theorem headInstalled_zero (s : State) : s.headInstalled 0 = false := rfl

theorem headReported_eq (s : State) (h : Fin 31) : s.headReported h = (decide (h = 0) || s.headInstalled h) := by
  unfold State.headReported
  congr 2
  exact propext (Fin.ext_iff (b := 0)).symm

theorem unitStale_iff (s : State) : s.unitStale = true ↔
    ∃ h, h ≠ 0 ∧ s.headInstalled h = true ∧ (s.srx.heads.get h).judgement = .stale := by
  simp only [State.unitStale, List.any_eq_true, List.mem_finRange, true_and, Bool.and_eq_true, decide_eq_true_eq]
  refine exists_congr fun h => ⟨fun ⟨installed, stale⟩ => ⟨?_, installed, stale⟩, fun ⟨_, both⟩ => both⟩
  rintro rfl
  exact absurd installed (by rw [headInstalled_zero]; decide)

/-- The PLANT notice of the end of the fallback, as a told notice. -/
def State.silenceTold (s : State) : List Told :=
  if s.srx.busSilent = true ∧ s.ctx.silent ≠ none then [(.plant, 0, [2, 0])] else []

/-- The state at the end of the silence, without its notice. -/
def State.unsilenced (s : State) : State := { s with
  srx.busSilent := false
  ctx.silent := if s.srx.busSilent = true then none else s.ctx.silent
  handovers := s.handovers ++ if s.srx.busSilent = true then [.present [(12, false)]] else [] }

theorem endSilence_eq (s : State) : endSilence s = notifyAll s.silenceTold s.unsilenced := by
  unfold endSilence Machine.endSilent State.silenceTold State.unsilenced
  cases silent : s.srx.busSilent with
  | false =>
    have keep : { s.srx with busSilent := false } = s.srx := by rw [← silent]
    rw [if_neg (by decide), if_neg (by simp), keep]
    simp [notifyAll]
  | true =>
    cases run : s.ctx.silent with
    | none =>
      rw [if_pos rfl, if_neg (by simp [emit, run]), if_neg (by simp)]
      simp [emit, notifyAll, ← run]
    | some r =>
      rw [if_pos rfl, if_pos (by simp [emit, run]), if_pos (by simp)]
      rfl

theorem deadTimerAt_eq {kind : BusKind} (known : kind ≠ .none) (last : BusKind) (s : State) :
    deadTimerAt kind last s = { s with
      srx.deadTimer := if kind = .period then none else if last = .dead then s.srx.deadTimer
        else some (s.dueIn (s.sysNat Sys.deadTime))
      srx.busDead := decide (kind = .dead) && s.srx.busDead } := by
  cases kind with
  | none => exact absurd rfl known
  | period => rfl
  | dead => cases last <;> rfl

/-- What a bus record does after the judgements are reported (R10, R12, R9, R14). -/
def closeRecord (kind last : BusKind) (stamp : Stamp) (v : Nat) (s : State) : State :=
  let s := { s with srx.silenceTimer := some (s.dueIn (s.sysNat Sys.busSilenceLimit)) }
  let s := deadTimerAt kind last s
  let s := emit (.present [(0, s.srx.busDead)]) s
  let s := emit (.present [(13, s.unitStale)]) s
  { s with ben.starts := s.ben.starts ++ [⟨kind, v, stamp, s.srx.heads⟩] }

theorem closeRecord_eq {kind : BusKind} (known : kind ≠ .none) (last : BusKind) (stamp : Stamp) (v : Nat) (s : State) :
    closeRecord kind last stamp v s = { s with
      srx.silenceTimer := some (s.dueIn (s.sysNat Sys.busSilenceLimit))
      srx.deadTimer := if kind = .period then none else if last = .dead then s.srx.deadTimer
        else some (s.dueIn (s.sysNat Sys.deadTime))
      srx.busDead := decide (kind = .dead) && s.srx.busDead
      ben.starts := s.ben.starts ++ [⟨kind, v, stamp, s.srx.heads⟩]
      handovers := s.handovers ++ [.present [(0, decide (kind = .dead) && s.srx.busDead)],
        .present [(13, s.unitStale)]] } := by
  unfold closeRecord
  dsimp only
  rw [deadTimerAt_eq known]
  unfold emit
  rw [List.append_assoc]
  rfl

/-- The table, the stamp and the kind that a bus record leaves, at the end of the silence (R7, R11). -/
def State.tabled (s : State) (kind : BusKind) (stamp : Stamp) (v : Nat) : State := { s.unsilenced with
  srx := { s.unsilenced.srx with heads := s.tableAfter stamp v, busStamp := some stamp, lastKind := kind } }

/-- The notices of a bus record, in order (R8, R11). -/
def State.recordTold (s : State) (kind : BusKind) (stamp : Stamp) (v : Nat) : List Told :=
  s.silenceTold ++ (s.tabled kind stamp v).judged s.srx.heads

theorem judged_congr {s t : State} (settings : t.headReported = s.headReported) (heads : t.srx.heads = s.srx.heads)
    (old : Tab 31 HeadEntry) : t.judged old = s.judged old := by
  unfold State.judged State.headChanged State.headTold
  rw [settings, heads]

theorem takeBusRecord_reports (kind : BusKind) (stamp : Stamp) (v : Nat) (s : State) :
    takeBusRecord kind stamp v s = closeRecord kind s.srx.lastKind stamp v
      (reportJudgements s.srx.heads (notifyAll s.silenceTold (s.tabled kind stamp v))) := by
  have stages : takeBusRecord kind stamp v s = let x := endSilence s
      closeRecord kind x.srx.lastKind stamp v (reportJudgements x.srx.heads { x with
        srx := { x.srx with heads := x.tableAfter stamp v, busStamp := some stamp, lastKind := kind } }) := by
    unfold takeBusRecord closeRecord
    generalize endSilence s = x
    dsimp only
  have srx : (endSilence s).srx = s.unsilenced.srx := by rw [endSilence_eq, notifyAll_eq]
  have table : (endSilence s).tableAfter = s.tableAfter := by rw [endSilence_eq, notifyAll_eq]; rfl
  dsimp only at stages
  rw [stages, srx, table, endSilence_eq, ← notifyAll_withSrx]
  rfl

theorem takeBusRecord_eq {kind : BusKind} (known : kind ≠ .none) (stamp : Stamp) (v : Nat) (s : State) :
    takeBusRecord kind stamp v s = notifyAll (s.recordTold kind stamp v)
      (closeRecord kind s.srx.lastKind stamp v (s.tabled kind stamp v)) := by
  have told : (notifyAll s.silenceTold (s.tabled kind stamp v)).judged s.srx.heads =
      (s.tabled kind stamp v).judged s.srx.heads :=
    judged_congr (by rw [notifyAll_eq]; rfl) (by rw [notifyAll_eq]) _
  rw [takeBusRecord_reports, reportJudgements_eq, told, ← notifyAll_append, closeRecord_eq known, closeRecord_eq known,
    notifyAll_eq, notifyAll_eq]
  rfl

end Sys2Proof.Machine

/-!
SUPPORT. The sample link's commands: POWER frames, bus records, the silence timer and the dead timer (R3 to R17).
-/
namespace Sys2Proof.Machine

/-! ### What SRX takes out of the receive stage -/

/-- A frame that passes the checks of R3 is acted on with the stage empty. -/
theorem takeBurst_some {burst : List Byte} {x : Sample} (act : Sample → State → State) {s : State}
    (held : s.srx.stage = none ∨ s.srx.stage = some burst) (reads : sampleOf burst = some x) :
    takeBurst burst act s = act x { s with srx.stage := none } := by
  unfold takeBurst; rw [if_pos held, reads]

theorem sampleOf_power {h : Fin 31} {v : Int} (stamp : Stamp) (zero : h ≠ 0) (lo : -8388608 ≤ v) (hi : v ≤ 8388607) :
    sampleOf (sampleBytes 3 h.val stamp v) = some (.power h stamp v) := by
  have value : (BitVec.ofInt 24 v).toInt = v := BitVec.toInt_ofInt_eq_self (by decide) lo (by omega)
  have positive : decide (h.val = 0) = false := decide_eq_false fun e => zero (Fin.ext e)
  rw [sampleOf_sampleBytes (by decide) (by omega), dif_pos h.isLt, positive, value]
  rfl

theorem sampleOf_bus {kind : BusKind} {v : Int} {value : Nat} (stamp : Stamp)
    (known : kind = .period ∧ 0 ≤ v ∧ v < 16777216 ∧ value = v.toNat ∨ kind = .dead ∧ value = 0) :
    sampleOf (sampleBytes kind.code 0 stamp v) = some (.bus kind stamp value) := by
  rcases known with ⟨rfl, lo, hi, rfl⟩ | ⟨rfl, rfl⟩
  · have raw : (BitVec.ofInt 24 v).toNat = v.toNat := by
      rw [BitVec.toNat_ofInt, Int.emod_eq_of_lt lo (by omega)]
    rw [← raw]
    exact (sampleOf_sampleBytes (kind := 1) (by decide) (by decide) stamp v).trans rfl
  · exact (sampleOf_sampleBytes (kind := 2) (by decide) (by decide) stamp v).trans rfl

/-- The age of R4 as a natural number. -/
theorem frameAge_eq (latest stamp : Stamp) : frameAge latest stamp = (latest.toNat + 64 - stamp.toNat) % 64 := by
  unfold frameAge
  rw [BitVec.toNat_sub]
  have := stamp.isLt
  omega

/-- An aligned POWER frame: the head's row, and a UNIT notice where the head was STALE (R6, R8). -/
theorem takePower_eq {h : Fin 31} (zero : h ≠ 0) (stamp : Stamp) (v : Int) (s : State) :
    takePower h stamp v s =
      (if s.headInstalled h = true ∧ (s.srx.heads.get h).judgement = .stale then
        notify .unit h.val [0, 0] { s with srx.heads := s.srx.heads.put h ⟨some v, stamp, 0, .fresh⟩ }
      else { s with srx.heads := s.srx.heads.put h ⟨some v, stamp, 0, .fresh⟩ }) := by
  unfold takePower
  dsimp only
  rw [reportJudgements_eq, judged_put _ _ h ⟨some v, stamp, 0, .fresh⟩ rfl, notifyAll_if]
  refine ite_congr_iff ?_ rfl rfl
  have reported : ({ s with srx.heads := s.srx.heads.put h ⟨some v, stamp, 0, .fresh⟩ } : State).headReported h =
      s.headInstalled h := by
    rw [headReported_eq, decide_eq_false zero]; rfl
  rw [reported]
  cases (s.srx.heads.get h).judgement <;> simp

/-! ### The bus silence timer (R10, R51) -/

theorem fallbackPick_eq (s : State) (choice : Fallback) (p : Fin 8) : s.fallbackPick choice p =
    (fallbackCeiling s choice p).map fun c => if s.ctx.forcedZero = true then 0 else c := by
  unfold State.fallbackPick fallbackCeiling
  split
  · rfl
  · cases choice with
    | hold => rfl
    | zero => simp
    | full => cases s.ctx.forcedZero <;> cases (s.plantRow p).inService <;> simp

/-- Whether the fallback begins where the bus is silent (R51). -/
abbrev State.beginsSilent (s : State) : Prop := s.sst.mode = .run ∧ s.ctx.silent = none

theorem beginSilent_eq {s : State} (silent : s.srx.busSilent = true) :
    beginSilent s = notifyAll (if s.beginsSilent then [(.plant, 0, [2, 1])] else []) { s with
      ctx.silent := if s.beginsSilent then some ⟨fallbackOf (s.sys Sys.silentFallback), s.tick + 20⟩ else s.ctx.silent
      ctx.waiting := if s.beginsSilent then
        Tab.ofFn fun p => (s.fallbackPick (fallbackOf (s.sys Sys.silentFallback)) p).or (s.ctx.waiting.get p)
        else s.ctx.waiting } := by
  have cond : (s.inRun && s.srx.busSilent && s.ctx.silent.isNone) = true ↔ s.beginsSilent := by
    simp [State.inRun, silent]
  have told : notifyChange 2 1 = notifyAll [(.plant, 0, [2, 1])] := rfl
  unfold beginSilent
  by_cases begins : s.beginsSilent
  · rw [if_pos (cond.2 begins), if_pos begins, if_pos begins, if_pos begins, fallbackFill_eq, told, notifyAll_eq, notifyAll_eq]
    rfl
  · rw [if_neg (mt cond.1 begins), if_neg begins, if_neg begins, if_neg begins]
    rfl

/-- The notice of head 0 that becomes STALE (R8, R10). -/
def State.staleTold (s : State) : List Told :=
  if (s.srx.heads.get 0).judgement = .fresh then
    [(.unit, 0, [1, BitVec.ofNat 32 (s.srx.heads.get 0).framesSince])] else []

theorem busFellSilent_eq (s : State) : busFellSilent s =
    notifyAll (s.staleTold ++ if s.beginsSilent then [(.plant, 0, [2, 1])] else []) { s with
      srx.silenceTimer := none
      srx.busSilent := true
      srx.heads := s.srx.heads.put 0 { s.srx.heads.get 0 with judgement := .stale }
      ctx.silent := if s.beginsSilent then some ⟨fallbackOf (s.sys Sys.silentFallback), s.tick + 20⟩ else s.ctx.silent
      ctx.waiting := if s.beginsSilent then
        Tab.ofFn fun p => (s.fallbackPick (fallbackOf (s.sys Sys.silentFallback)) p).or (s.ctx.waiting.get p)
        else s.ctx.waiting
      handovers := s.handovers ++ [.present [(12, true)]] } := by
  let t : State := { s with
    srx.silenceTimer := none
    srx.busSilent := true
    srx.heads := s.srx.heads.put 0 { s.srx.heads.get 0 with judgement := .stale } }
  have told : t.judged s.srx.heads = s.staleTold := by
    rw [judged_put t s.srx.heads 0 _ rfl]
    unfold State.staleTold
    refine ite_congr_iff ?_ rfl rfl
    have reported : t.headReported 0 = true := rfl
    rw [reported]
    cases (s.srx.heads.get 0).judgement <;> simp
  have begins : beginSilent (notifyAll s.staleTold t) =
      notifyAll (if s.beginsSilent then [(.plant, 0, [2, 1])] else []) (notifyAll s.staleTold { t with
        ctx.silent := if s.beginsSilent then some ⟨fallbackOf (s.sys Sys.silentFallback), s.tick + 20⟩ else s.ctx.silent
        ctx.waiting := if s.beginsSilent then
          Tab.ofFn fun p => (s.fallbackPick (fallbackOf (s.sys Sys.silentFallback)) p).or (s.ctx.waiting.get p)
          else s.ctx.waiting }) := by
    rw [beginSilent_eq (by rw [notifyAll_eq])]
    simp only [notifyAll_eq s.staleTold]
    rfl
  have stages : busFellSilent s = emit (.present [(12, true)]) (beginSilent (reportJudgements s.srx.heads t)) := rfl
  rw [stages, reportJudgements_eq, told, begins, ← notifyAll_append, notifyAll_eq, notifyAll_eq]
  rfl

/-! ### The commands -/

/-- A frame whose effect is known, with its cascade. -/
theorem takeEvent_takeBurst {burst : List Byte} {x : Sample} (act : Sample → State → State) {s : State} (calm : s.calm)
    (held : s.srx.stage = none ∨ s.srx.stage = some burst) (reads : sampleOf burst = some x) :
    (.next (takeEvent (takeBurst burst act) s) : Answer) = .next (cascade (act x { s with srx.stage := none })) := by
  rw [takeEvent_high _ _ calm.1, takeBurst_some act held reads]; rfl

theorem takeEvent_takeBurst_other {burst held : List Byte} (act : Sample → State → State) {s : State} (calm : s.calm)
    (stage : s.srx.stage = some held) (other : held ≠ burst) :
    (.next (takeEvent (takeBurst burst act) s) : Answer) = .next s := by
  rw [takeEvent_calm calm (by rw [takeBurst_other _ stage other]), takeBurst_other _ stage other]

/-- A POWER frame taken or discarded hands nothing over. -/
theorem exec_powerFrame {h : Fin 31} {stamp : Stamp} {v : Int} {s u : State} (calm : s.calm) (zero : h ≠ 0)
    (lo : -8388608 ≤ v) (hi : v ≤ 8388607)
    (held : s.srx.stage = none ∨ s.srx.stage = some (sampleBytes 3 h.val stamp v))
    (acts : powerAct (.power h stamp v) { s with srx.stage := none } = u) (quiet : u.handovers = s.handovers) :
    exec (.powerFrame (sampleBytes 3 h.val stamp v)) s = .next u := by
  refine (takeEvent_takeBurst powerAct calm held (sampleOf_power stamp zero lo hi)).trans ?_
  rw [acts, cascade_of_idle (quiet.trans calm.2)]

theorem exec_busRecord {kind : BusKind} {stamp : Stamp} {v : Int} {value : Nat} {s : State} (calm : s.calm)
    (known : kind = .period ∧ 0 ≤ v ∧ v < 16777216 ∧ value = v.toNat ∨ kind = .dead ∧ value = 0)
    (held : s.srx.stage = none ∨ s.srx.stage = some (sampleBytes kind.code 0 stamp v)) :
    exec (.busRecord (sampleBytes kind.code 0 stamp v)) s =
      .next (cascade (takeBusRecord kind stamp value { s with srx.stage := none })) :=
  takeEvent_takeBurst busAct calm held (sampleOf_bus stamp known)

/-- What a bus record leaves before its hand-overs are delivered, written out. -/
theorem takeBusRecord_run {kind : BusKind} (known : kind ≠ .none) (stamp : Stamp) (v : Nat) (s : State) :
    let u := takeBusRecord kind stamp v s
    u.srx = { s.srx with
      heads := s.tableAfter stamp v, busStamp := some stamp, lastKind := kind, busSilent := false
      silenceTimer := some (s.dueIn (s.sysNat Sys.busSilenceLimit))
      deadTimer := if kind = .period then none else if s.srx.lastKind = .dead then s.srx.deadTimer
        else some (s.dueIn (s.sysNat Sys.deadTime))
      busDead := decide (kind = .dead) && s.srx.busDead } ∧
    u = { s with
      srx := u.srx
      ben.starts := s.ben.starts ++ [⟨kind, v, stamp, s.tableAfter stamp v⟩]
      ctx.silent := if s.srx.busSilent = true then none else s.ctx.silent
      handovers := s.handovers ++ (if s.srx.busSilent = true then [.present [(12, false)]] else []) ++
        [.present [(0, u.srx.busDead)], .present [(13, u.unitStale)]]
      hlc.notices := s.hlc.notices ++ ((s.recordTold kind stamp v).map
        fun n => ⟨n.1, s.tick, n.2.1, n.2.2⟩).take (32 - s.hlc.notices.length)
      hlc.lost := s.hlc.lost || decide (32 - s.hlc.notices.length < (s.recordTold kind stamp v).length) } := by
  rw [takeBusRecord_eq known, notifyAll_eq, closeRecord_eq known]
  exact ⟨rfl, rfl⟩

theorem tableAfter_zero (s : State) (stamp : Stamp) (v : Nat) :
    (s.tableAfter stamp v).get 0 = ⟨some v, stamp, 0, .fresh⟩ := by
  unfold State.tableAfter; rw [Tab.get_mapIdx]; rfl

theorem tableAfter_other (s : State) (stamp : Stamp) (v : Nat) {h : Fin 31} (other : h ≠ 0) :
    (s.tableAfter stamp v).get h =
      ⟨(s.srx.heads.get h).value, (s.srx.heads.get h).stamp, min 255 ((s.srx.heads.get h).framesSince + 1),
        if s.sysNat Sys.staleLimit < min 255 ((s.srx.heads.get h).framesSince + 1) then .stale else .fresh⟩ := by
  unfold State.tableAfter
  rw [Tab.get_mapIdx]
  exact if_neg fun e => other (Fin.ext e)

/-- A told notice as it is queued. -/
def Told.queued (tick : Tick) (n : Told) : Notice := ⟨n.1, tick, n.2.1, n.2.2⟩

theorem map_queued_if (c : Prop) [Decidable c] (n : Told) (tick : Tick) :
    (if c then [n] else []).map (Told.queued tick) = if c then [n.queued tick] else [] := by
  split <;> rfl

/-- The notices of a change of the table, in the words of R8. -/
theorem map_queued_judged {s u : State} {old : Tab 31 HeadEntry} (tick : Tick) (heads : s.srx.heads = u.srx.heads) :
    (s.judged old).map (Told.queued tick) =
      ((List.finRange 31).filter fun h => (decide (h = 0) || s.headInstalled h) &&
        decide ((old.get h).judgement ≠ (u.srx.heads.get h).judgement)).map fun h =>
          ⟨.unit, tick, h.val, [if (u.srx.heads.get h).judgement = .fresh then 0 else 1,
            BitVec.ofNat 32 (u.srx.heads.get h).framesSince]⟩ := by
  have changed : s.headChanged old = fun h => (decide (h = 0) || s.headInstalled h) &&
      decide ((old.get h).judgement ≠ (u.srx.heads.get h).judgement) := by
    funext h
    rw [State.headChanged, headReported_eq, heads]
    cases (old.get h).judgement <;> cases (u.srx.heads.get h).judgement <;> rfl
  rw [State.judged, List.map_map, changed]
  refine List.map_congr_left fun h _ => ?_
  rw [← heads]; rfl

theorem map_queued_recordTold (kind : BusKind) (stamp : Stamp) (v : Nat) (s u : State)
    (heads : u.srx.heads = s.tableAfter stamp v) :
    (s.recordTold kind stamp v).map (Told.queued s.tick) =
      (if s.srx.busSilent = true ∧ s.ctx.silent ≠ none then [⟨.plant, s.tick, 0, [2, 0]⟩] else []) ++
      ((List.finRange 31).filter fun h => (decide (h = 0) || s.headInstalled h) &&
        decide ((s.srx.heads.get h).judgement ≠ (u.srx.heads.get h).judgement)).map fun h =>
          ⟨.unit, s.tick, h.val, [if (u.srx.heads.get h).judgement = .fresh then 0 else 1,
            BitVec.ofNat 32 (u.srx.heads.get h).framesSince]⟩ := by
  rw [State.recordTold, List.map_append, State.silenceTold, map_queued_if,
    map_queued_judged s.tick (s := s.tabled kind stamp v) (u := u) heads.symm]
  rfl

theorem cascade_srx (s : State) : (cascade s).srx = s.srx := (Walk.drain _ s).srx_eq (by decide)

/-- RESTART sets SRX to its initial state, and no other block's part moves it. -/
theorem restartPart_srx (s : State) : (restartPart s).srx = Srx.initial := by
  have blocks : Walk [.ben, .chains, .gsd, .fdc, .bss, .ctx, .handovers] (restartEntered s) (restartPart s) := by
    rw [restartPart_eq]
    exact ((((((Walk.ben (by decide) _ _).trans (Walk.chuRestart (by decide) _)).trans
      (Walk.gsdAbandon (by decide) (by decide) _)).trans (Walk.fdcAbandon (by decide) _)).trans
      (Walk.bssRestart (by decide) (by decide) _)).trans (Walk.ctxRestart (by decide) _))
  rw [blocks.srx_eq (by decide)]; rfl

/-- Settles O58: the age test of a POWER frame, and the bus stamp after a record, power-on and RESTART. -/
theorem powerFramesByAge : Obligations.PowerFramesByAge := by
  refine ⟨fun s h stamp v calm zero lo hi => ?_, fun s kind stamp v known => ?_, fun s a b => ⟨_, rfl, rfl⟩,
    fun s tag ht => ?_⟩
  · intro burst left
    refine ⟨fun other stage ne => takeEvent_takeBurst_other powerAct calm stage ne, fun held => ⟨fun unknown => ?_, ?_⟩⟩
    · refine exec_powerFrame calm zero lo hi held ?_ rfl
      exact if_neg (by simp [State.aligned, unknown])
    · intro latest known
      have aligned : ({ s with srx.stage := none } : State).aligned stamp =
          decide ((latest.toNat + 64 - stamp.toNat) % 64 ≤ 32) := by
        rw [← frameAge_eq]
        simp only [State.aligned, known]
      refine ⟨fun late => ?_, fun early => ?_⟩
      · exact exec_powerFrame calm zero lo hi held (if_neg (by rw [aligned]; simpa using late)) rfl
      · refine exec_powerFrame calm zero lo hi held ((if_pos (by rw [aligned]; simpa using early)).trans
          (takePower_eq zero stamp v _)) ?_
        dsimp only
        split
        · exact notify_handovers ..
        · rfl
  · intro burst calm held
    have given : kind = .period ∧ 0 ≤ v ∧ v < 16777216 ∧ (if kind = .period then v.toNat else 0) = v.toNat ∨
        kind = .dead ∧ (if kind = .period then v.toNat else 0) = 0 := by
      rcases known with ⟨rfl, lo, hi⟩ | rfl
      · exact .inl ⟨rfl, lo, hi, rfl⟩
      · exact .inr ⟨rfl, rfl⟩
    have some_ : kind ≠ .none := by rcases known with ⟨rfl, _⟩ | rfl <;> decide
    obtain ⟨srx, -⟩ := takeBusRecord_run some_ stamp (if kind = .period then v.toNat else 0)
      { s with srx.stage := none }
    refine ⟨_, exec_busRecord calm given held, ?_, ?_⟩
    · rw [cascade_srx, srx]
    · rw [cascade_srx, srx]
  · refine ⟨_, request_cascade restartAct ht rfl rfl, ?_⟩
    rw [cascade_srx, restartAct, restartPart_srx]; rfl

/-- What the bus silence timer leaves before its hand-over is delivered, written out. -/
theorem busFellSilent_run (s : State) :
    let u := busFellSilent s
    u.srx = { s.srx with
      silenceTimer := none, busSilent := true
      heads := s.srx.heads.put 0 { s.srx.heads.get 0 with judgement := .stale } } ∧
    u.ctx = { s.ctx with
      silent := if s.beginsSilent then some ⟨fallbackOf (s.sys Sys.silentFallback), s.tick + 20⟩ else s.ctx.silent
      waiting := if s.beginsSilent then
        Tab.ofFn fun p => (s.fallbackPick (fallbackOf (s.sys Sys.silentFallback)) p).or (s.ctx.waiting.get p)
        else s.ctx.waiting } ∧
    (let queued : List Notice :=
      (if (s.srx.heads.get 0).judgement = .fresh then
        [⟨.unit, s.tick, 0, [1, BitVec.ofNat 32 (s.srx.heads.get 0).framesSince]⟩] else []) ++
      (if s.beginsSilent then [⟨.plant, s.tick, 0, [2, 1]⟩] else [])
     u.hlc.notices = s.hlc.notices ++ queued.take (32 - s.hlc.notices.length) ∧
     u.hlc.lost = (s.hlc.lost || decide (32 - s.hlc.notices.length < queued.length))) ∧
    u = { s with
      srx := u.srx, ctx.silent := u.ctx.silent, ctx.waiting := u.ctx.waiting
      handovers := s.handovers ++ [.present [(12, true)]], hlc.notices := u.hlc.notices, hlc.lost := u.hlc.lost } := by
  have queued : (s.staleTold ++ if s.beginsSilent then [(.plant, 0, [2, 1])] else [] : List Told).map (Told.queued s.tick) =
      (if (s.srx.heads.get 0).judgement = .fresh then
        [⟨.unit, s.tick, 0, [1, BitVec.ofNat 32 (s.srx.heads.get 0).framesSince]⟩] else []) ++
      (if s.beginsSilent then [⟨.plant, s.tick, 0, [2, 1]⟩] else []) := by
    rw [List.map_append, State.staleTold, map_queued_if, map_queued_if]; rfl
  have count := (congrArg List.length queued).symm.trans (List.length_map _)
  rw [busFellSilent_eq, notifyAll_eq]
  refine ⟨rfl, rfl, ⟨?_, ?_⟩, rfl⟩
  · rw [← queued]; rfl
  · rw [count]

/-- Time that passes moves the tick, the stable-since timer and the run times alone. -/
theorem advanceTo_shape (due : Tick) (s : State) :
    ∃ tick ben gsd, advanceTo due s = { s with tick := tick, ben := ben, gsd := gsd } := by
  unfold advanceTo; split <;> exact ⟨_, _, _, rfl⟩

/-- Settles O59: the bus record in the order of R14, the two timers, the receive stage. -/
theorem busRecordsAndSampleTimers : Obligations.BusRecordsAndSampleTimers := by
  refine ⟨fun s stamp v kind value known => ?_, fun s calm => ⟨fun idle => ?_, fun idle => ?_,
    fun burst other stage ne => takeEvent_takeBurst_other busAct calm stage ne, fun due runs => ?_, fun due runs => ?_,
    fun burst => ?_⟩⟩
  · intro burst calm held
    have some_ : kind ≠ .none := by rcases known with ⟨rfl, _⟩ | ⟨rfl, _⟩ <;> decide
    obtain ⟨srx, whole⟩ := takeBusRecord_run some_ stamp value { s with srx.stage := none }
    have told := map_queued_recordTold kind stamp value { s with srx.stage := none }
      (takeBusRecord kind stamp value { s with srx.stage := none }) (by rw [srx])
    refine ⟨takeBusRecord kind stamp value { s with srx.stage := none }, exec_busRecord calm known held, ?_⟩
    generalize takeBusRecord kind stamp value { s with srx.stage := none } = u at srx whole told ⊢
    have heads : u.srx.heads = s.tableAfter stamp value := by rw [srx]; rfl
    have starts : u.ben.starts = s.ben.starts ++ [⟨kind, value, stamp, s.tableAfter stamp value⟩] :=
      congrArg (fun x => x.ben.starts) whole
    have silent : u.ctx.silent = if s.srx.busSilent = true then none else s.ctx.silent :=
      congrArg (fun x => x.ctx.silent) whole
    have out : u.handovers = s.handovers ++ (if s.srx.busSilent = true then [.present [(12, false)]] else []) ++
        [.present [(0, u.srx.busDead)], .present [(13, u.unitStale)]] := congrArg (fun x => x.handovers) whole
    have notices := congrArg (fun x => x.hlc.notices) whole
    have lost := congrArg (fun x => x.hlc.lost) whole
    have installed : u.headInstalled = s.headInstalled := (congrArg State.headInstalled whole).trans rfl
    refine ⟨by rw [heads, tableAfter_zero], fun h other => by rw [heads, tableAfter_other s stamp value other],
      by rw [srx], by rw [srx], by rw [srx], by rw [srx]; rfl, by rw [srx]; rfl, by rw [srx], by rw [srx],
      ?_, ?_, ⟨u.unitStale, ?_, ?_⟩, ⟨?_, ?_⟩, ?_⟩
    · rw [starts, heads]
    · exact silent
    · rw [unitStale_iff, installed]
    · rw [out, calm.2]; rfl
    · exact notices.trans (congrArg (fun l => s.hlc.notices ++ l.take (32 - s.hlc.notices.length)) told)
    · exact lost.trans (congrArg (fun n => s.hlc.lost || decide (32 - s.hlc.notices.length < n))
        ((congrArg List.length told).symm.trans (List.length_map _)).symm)
    · rw [starts, silent, out, notices, lost]; exact whole
  · change Host.Outcome.next (takeEvent (expire s.srx.silenceTimer busFellSilent) s) = _
    rw [idle]; exact takeEvent_expire_none calm _
  · change Host.Outcome.next (takeEvent (expire s.srx.deadTimer busDeclaredDead) s) = _
    rw [idle]; exact takeEvent_expire_none calm _
  · have runs : exec .busSilenceTimerExpiry s = .next (cascade (busFellSilent (advanceTo due s))) := by
      change Host.Outcome.next (takeEvent (expire s.srx.silenceTimer busFellSilent) s) = _
      rw [runs]; exact takeEvent_expire_some calm due _
    refine ⟨busFellSilent (advanceTo due s), runs, ?_⟩
    obtain ⟨tick, ben, gsd, shape⟩ := advanceTo_shape due s
    dsimp only
    rw [shape]
    obtain ⟨srx, ctx, notices, whole⟩ := busFellSilent_run { s with tick := tick, ben := ben, gsd := gsd }
    have out := congrArg State.handovers whole
    refine ⟨out.trans (congrArg (· ++ _) calm.2), srx, ⟨by rw [ctx]; rfl, fun p => ?_, notices⟩, fun off => ?_, ?_⟩
    · rw [ctx]
      dsimp only
      split
      · rw [Tab.get_ofFn, fallbackPick_eq]
        exact (fallbackCeiling s (fallbackOf (s.sys Sys.silentFallback)) p).casesOn rfl fun _ => rfl
      · rfl
    · rw [ctx, if_neg fun c => off c.1, if_neg fun c => off c.1]
    · rw [out]; exact whole
  · change Host.Outcome.next (takeEvent (expire s.srx.deadTimer busDeclaredDead) s) = _
    rw [runs]
    refine (takeEvent_expire_some calm due _).trans ?_
    obtain ⟨tick, ben, gsd, shape⟩ := advanceTo_shape due s
    rw [shape]
    simp only [busDeclaredDead, emit, calm.2, List.nil_append, List.cons_append]
  · have stage : receiveBurst burst s = if s.srx.stage = none then { s with srx.stage := some burst } else s := by
      unfold receiveBurst
      cases s.srx.stage <;> rfl
    refine (congrArg Host.Outcome.next (takeEvent_calm calm ?_)).trans (by rw [stage])
    rw [stage]; split <;> rfl

end Sys2Proof.Machine

/-!
SUPPORT. The idle step: the events that are ready, and the millisecond that passes where none is (log entries 1, 39, 40).
-/
namespace Sys2Proof.Machine

/-! ### Each group of events -/

section
variable {s : State} {i : Instr}

theorem mem_linkEventsReady : i ∈ linkEventsReady s ↔
    (∃ burst, s.srx.stage = some burst ∧ sampleOfStage burst = i) ∨ (s.ben.starts ≠ [] ∧ i = .balancePass) ∨
    ((∃ p, s.ctx.waiting.get p ≠ none) ∧ i = .ceilingFrameSend) ∨ (s.hlc.reply ≠ none ∧ i = .replySend) ∨
    ((∃ p, s.hlc.partialFrame = some p ∧ s.remaining p.due = 0) ∧ i = .hostCharacterTimeout) ∨
    (∃ f, s.hlc.slots.head? = some f ∧ requestOf f = i) ∨ (s.hlc.notices ≠ [] ∧ i = .noticeSend) := by
  have waits : s.nextCeiling.isSome = true ↔ ∃ p, s.ctx.waiting.get p ≠ none := by
    simp [State.nextCeiling, Option.isSome_iff_ne_none]
  have first : ∀ l : List HostFrame, i ∈ (l.take 1).map requestOf ↔ ∃ f, l.head? = some f ∧ requestOf f = i := by
    intro l; cases l <;> simp [eq_comm]
  have late : s.due (s.hlc.partialFrame.map PartialFrame.due) = true ↔
      ∃ p, s.hlc.partialFrame = some p ∧ s.remaining p.due = 0 := by
    rw [due_iff]; cases s.hlc.partialFrame <;> simp
  simp only [linkEventsReady, List.mem_append, mem_onlyIf, waits, first, late, or_assoc]
  simp [Option.isSome_iff_ne_none]

theorem mem_blockTimersDue : i ∈ blockTimersDue s ↔
    (s.due s.srx.silenceTimer = true ∧ i = .busSilenceTimerExpiry) ∨
    (s.due s.srx.deadTimer = true ∧ i = .deadTimerExpiry) ∨
    (s.due (s.ctx.silent.map FallbackRun.due) = true ∧ i = .silentFallbackTick) ∨
    (s.due (s.ctx.fault.map FallbackRun.due) = true ∧ i = .faultFallbackTick) ∨
    (s.due s.bss.firstCloseTimer = true ∧ i = .firstCloseTimerExpiry) ∨
    (s.due s.bss.energizeTimer = true ∧ i = .energizeTimerExpiry) ∨
    (s.due s.bss.limitTimer = true ∧ i = .energizeLimitTimerExpiry) ∨
    (s.due s.bss.settleTimer = true ∧ i = .settleTimerExpiry) := by
  simp only [blockTimersDue, List.mem_append, mem_onlyIf, or_assoc]

theorem mem_setEventsDue {g : Fin 6} : i ∈ setEventsDue s g ↔
    (s.due (s.setRec g).timer = true ∧ i ∈ stateTimerExpiry (s.setRec g).state g) ∨
    (s.due (s.setRec g).minRunTimer = true ∧ i = .minRunTimerExpiry g) := by
  unfold setEventsDue
  rw [List.mem_append, mem_onlyIf]
  refine or_congr ?_ Iff.rfl
  split
  · next due => simp [due]
  · next idle => simp [idle]

theorem mem_scanDue : i ∈ scanDue s ↔ ∃ c, s.sst.scan = some c ∧
    ((c.position < 369 ∧ s.remaining (c.start + BitVec.ofNat 32 (c.position * 1000 / 369)) = 0) ∧ i = .scanItemRead ∨
      s.remaining (c.start + 1000) = 0 ∧ i = .scanCompletion) := by
  unfold scanDue
  cases s.sst.scan with
  | none => simp
  | some c =>
    rw [List.mem_append, mem_onlyIf, mem_onlyIf, Bool.and_eq_true, due_iff, due_iff, decide_eq_true_iff, checkOrder_length,
      Scan.itemDue, checkOrder_length]
    simp only [Option.some.injEq, exists_eq_left']
    rfl

theorem mem_readyEvents : i ∈ readyEvents s ↔ i ∈ linkEventsReady s ∨ i ∈ blockTimersDue s ∨
    (∃ c, s.due (s.condRow c).holdOff = true ∧ i = .holdOffExpiry c) ∨ (∃ g, i ∈ setEventsDue s g) ∨
    (∃ f, s.due (s.feederRec f).timer = true ∧ i = .breakerTimerExpiry f) ∨ i ∈ scanDue s := by
  simp only [readyEvents, List.mem_append, List.mem_flatMap, List.mem_finRange, true_and, mem_onlyIf, or_assoc]

/-! ### What is listed is ready -/

theorem isReady_requestOf {f : HostFrame} (held : s.hlc.slots.head? = some f) : isReady s (requestOf f) := by
  obtain ⟨kind, tag, body⟩ := f
  have named : ∀ n : Nat, n < 256 → kind.toNat = n → s.hlc.slots.head? = some ⟨BitVec.ofNat 8 n, tag, body⟩ :=
    fun n less e => by
      rw [held, BitVec.eq_of_toNat_eq (x := kind) (y := BitVec.ofNat 8 n) (by
        rw [e, BitVec.toNat_ofNat, Nat.mod_eq_of_lt less])]
  unfold requestOf
  dsimp only
  split
  case h_24 =>
    have zero : kind = 0 ∨ 0 < kind.toNat :=
      (Nat.eq_zero_or_pos kind.toNat).imp_left fun e => BitVec.eq_of_toNat_eq e
    simp only [imp_false] at *
    exact ⟨held, zero.imp_right fun positive => show 23 < kind.toNat by omega⟩
  all_goals exact named _ (by decide) ‹_›

theorem isReady_sampleOfStage {burst : List Byte} (held : s.srx.stage = some burst) :
    isReady s (sampleOfStage burst) := by
  unfold sampleOfStage
  split
  · next power => exact ⟨held, power⟩
  · next bus => exact ⟨held, bus⟩

theorem isReady_of_link (listed : i ∈ linkEventsReady s) : isReady s i := by
  rcases mem_linkEventsReady.1 listed with ⟨burst, held, rfl⟩ | ⟨ready, rfl⟩ | ⟨ready, rfl⟩ | ⟨ready, rfl⟩ |
    ⟨ready, rfl⟩ | ⟨f, held, rfl⟩ | ⟨ready, rfl⟩
  case inl => exact isReady_sampleOfStage held
  case inr.inr.inr.inr.inr.inl => exact isReady_requestOf held
  all_goals exact ready

theorem due_map_iff (run : Option FallbackRun) :
    s.due (run.map FallbackRun.due) = true ↔ ∃ r, run = some r ∧ s.remaining r.due = 0 := by
  cases run <;> simp [State.due]

theorem isReady_of_block (listed : i ∈ blockTimersDue s) : isReady s i := by
  rcases mem_blockTimersDue.1 listed with ⟨due, rfl⟩ | ⟨due, rfl⟩ | ⟨due, rfl⟩ | ⟨due, rfl⟩ | ⟨due, rfl⟩ |
    ⟨due, rfl⟩ | ⟨due, rfl⟩ | ⟨due, rfl⟩
  case inr.inr.inl | inr.inr.inr.inl => exact (due_map_iff _).1 due
  all_goals exact (due_iff s _).1 due

theorem isReady_of_set {g : Fin 6} (listed : i ∈ setEventsDue s g) : isReady s i := by
  rcases mem_setEventsDue.1 listed with ⟨due, timer⟩ | ⟨due, rfl⟩
  · have due := (due_iff s _).1 due
    cases state : (s.setRec g).state
    case cranking | rest | runUp | stopping =>
      rw [state] at timer
      cases List.mem_singleton.1 timer
      exact ⟨state, due⟩
    all_goals
      rw [state] at timer
      cases timer
  · exact (due_iff s _).1 due

theorem isReady_of_listed (listed : i ∈ readyEvents s) : isReady s i := by
  rcases mem_readyEvents.1 listed with link | block | ⟨c, due, rfl⟩ | ⟨g, set⟩ | ⟨f, due, rfl⟩ | scan
  · exact isReady_of_link link
  · exact isReady_of_block block
  · exact (due_iff s _).1 due
  · exact isReady_of_set set
  · exact (due_iff s _).1 due
  · obtain ⟨c, runs, ⟨⟨more, due⟩, rfl⟩ | ⟨due, rfl⟩⟩ := mem_scanDue.1 scan
    · exact ⟨c, runs, more, due⟩
    · exact ⟨c, runs, due⟩

/-! ### What is ready is listed -/

theorem listed_request {f : HostFrame} (held : s.hlc.slots.head? = some f) : requestOf f ∈ readyEvents s :=
  mem_readyEvents.2 (.inl (mem_linkEventsReady.2 (.inr (.inr (.inr (.inr (.inr (.inl ⟨f, held, rfl⟩))))))))

theorem requestOf_unknown {kind : Byte} (tag : Byte) (body : List Byte) (unknown : kind = 0 ∨ 0x17 < kind.toNat) :
    requestOf ⟨kind, tag, body⟩ = .requestUnknown kind tag body := by
  unfold requestOf
  dsimp only
  have outside : kind.toNat = 0 ∨ 0x17 < kind.toNat := unknown.imp_left (congrArg BitVec.toNat)
  split
  case h_24 => rfl
  all_goals omega

theorem listed_link (ready : i ∈ linkEventsReady s) : i ∈ readyEvents s := mem_readyEvents.2 (.inl ready)

theorem listed_block (due : i ∈ blockTimersDue s) : i ∈ readyEvents s := mem_readyEvents.2 (.inr (.inl due))

theorem listed_stateTimer {g : Fin 6} {st : SetState} (state : (s.setRec g).state = st)
    (due : ∃ d, (s.setRec g).timer = some d ∧ s.remaining d = 0) (timer : stateTimerExpiry st g = [i]) :
    i ∈ readyEvents s := by
  refine mem_readyEvents.2 (.inr (.inr (.inr (.inl ⟨g, mem_setEventsDue.2 (.inl ⟨(due_iff s _).2 due, ?_⟩)⟩))))
  rw [state, timer]
  exact List.mem_singleton_self i

end

section
variable {s : State}

theorem listed_due {timer : Option Tick} (due : ∃ d, timer = some d ∧ s.remaining d = 0) : s.due timer = true :=
  (due_iff s timer).2 due

theorem listed_run {run : Option FallbackRun} (due : ∃ r, run = some r ∧ s.remaining r.due = 0) :
    s.due (run.map FallbackRun.due) = true := (due_map_iff run).2 due

end

/-- What is ready is listed: for each event, its place among those of its group. -/
theorem listed_of_isReady {s : State} {i : Instr} (ready : isReady s i) : i ∈ readyEvents s := by
  cases i with
  | powerFrame burst =>
    exact listed_link (mem_linkEventsReady.2 (.inl ⟨burst, ready.1, if_pos ready.2⟩))
  | busRecord burst => exact listed_link (mem_linkEventsReady.2 (.inl ⟨burst, ready.1, if_neg ready.2⟩))
  | balancePass => exact listed_link (mem_linkEventsReady.2 (.inr (.inl ⟨ready, rfl⟩)))
  | ceilingFrameSend => exact listed_link (mem_linkEventsReady.2 (.inr (.inr (.inl ⟨ready, rfl⟩))))
  | replySend => exact listed_link (mem_linkEventsReady.2 (.inr (.inr (.inr (.inl ⟨ready, rfl⟩)))))
  | hostCharacterTimeout => exact listed_link (mem_linkEventsReady.2 (.inr (.inr (.inr (.inr (.inl ⟨ready, rfl⟩))))))
  | noticeSend =>
    exact listed_link (mem_linkEventsReady.2 (.inr (.inr (.inr (.inr (.inr (.inr ⟨ready, rfl⟩)))))))
  | busSilenceTimerExpiry => exact listed_block (mem_blockTimersDue.2 (.inl ⟨listed_due ready, rfl⟩))
  | deadTimerExpiry => exact listed_block (mem_blockTimersDue.2 (.inr (.inl ⟨listed_due ready, rfl⟩)))
  | silentFallbackTick => exact listed_block (mem_blockTimersDue.2 (.inr (.inr (.inl ⟨listed_run ready, rfl⟩))))
  | faultFallbackTick => exact listed_block (mem_blockTimersDue.2 (.inr (.inr (.inr (.inl ⟨listed_run ready, rfl⟩)))))
  | firstCloseTimerExpiry =>
    exact listed_block (mem_blockTimersDue.2 (.inr (.inr (.inr (.inr (.inl ⟨listed_due ready, rfl⟩))))))
  | energizeTimerExpiry =>
    exact listed_block (mem_blockTimersDue.2 (.inr (.inr (.inr (.inr (.inr (.inl ⟨listed_due ready, rfl⟩)))))))
  | energizeLimitTimerExpiry =>
    exact listed_block (mem_blockTimersDue.2 (.inr (.inr (.inr (.inr (.inr (.inr (.inl ⟨listed_due ready, rfl⟩))))))))
  | settleTimerExpiry =>
    exact listed_block (mem_blockTimersDue.2 (.inr (.inr (.inr (.inr (.inr (.inr (.inr ⟨listed_due ready, rfl⟩))))))))
  | holdOffExpiry c => exact mem_readyEvents.2 (.inr (.inr (.inl ⟨c, listed_due ready, rfl⟩)))
  | crankTimerExpiry g => exact listed_stateTimer ready.1 ready.2 rfl
  | restTimerExpiry g => exact listed_stateTimer ready.1 ready.2 rfl
  | syncTimerExpiry g => exact listed_stateTimer ready.1 ready.2 rfl
  | stopTimerExpiry g => exact listed_stateTimer ready.1 ready.2 rfl
  | minRunTimerExpiry g =>
    exact mem_readyEvents.2 (.inr (.inr (.inr (.inl ⟨g, mem_setEventsDue.2 (.inr ⟨listed_due ready, rfl⟩)⟩))))
  | breakerTimerExpiry f => exact mem_readyEvents.2 (.inr (.inr (.inr (.inr (.inl ⟨f, listed_due ready, rfl⟩)))))
  | scanItemRead =>
    obtain ⟨c, runs, more, due⟩ := ready
    exact mem_readyEvents.2 (.inr (.inr (.inr (.inr (.inr (mem_scanDue.2 ⟨c, runs, .inl ⟨⟨more, due⟩, rfl⟩⟩))))))
  | scanCompletion =>
    obtain ⟨c, runs, due⟩ := ready
    exact mem_readyEvents.2 (.inr (.inr (.inr (.inr (.inr (mem_scanDue.2 ⟨c, runs, .inr ⟨due, rfl⟩⟩))))))
  | requestUnknown kind tag body => rw [← requestOf_unknown tag body ready.2]; exact listed_request ready.1
  | identify | read | write | commit | engage | disengage | restart | safe | tune | auto | force | clear | bind | unbind
  | step | genset | feeder | plant | runtime | blackstart | ack | pass | status => exact listed_request ready
  | powerOn | resetNAsserted | hostFrameReceived | sampleFrameReceived | runningRises | runningFalls | breakerRises
  | breakerFalls | readyRises | readyFalls | runSecond | feederBreakerFalls | feederBreakerRises => exact ready.elim

/-- Settles O3: what is ready is what is listed, then the branches of the idle step. -/
theorem emptyQueueLetsTimePass : Obligations.EmptyQueueLetsTimePass := by
  refine ⟨fun s i => ⟨isReady_of_listed, listed_of_isReady⟩, fun s empty => ?_⟩
  have idles : step s = .next (idle s) := by unfold step; rw [empty]
  refine ⟨fun low => ?_, fun high waits => ?_, fun calm i l ready => ?_, fun calm none_ => ?_⟩
  · rw [idles, idle, if_pos low]
  · rw [idles, idle, if_neg (by rw [high]; decide), if_pos (by simpa using waits)]; rfl
  · rw [idles, idle, if_neg (by rw [calm.1]; decide), if_neg (by simp [calm.2]), ready, empty]; rfl
  · rw [idles, idle, if_neg (by rw [calm.1]; decide), if_neg (by simp [calm.2]), none_]
    refine ⟨advance 1 s, rfl, rfl, rfl, fun g => ?_, rfl⟩
    exact (advance_row 1 s g).trans rfl

end Sys2Proof.Machine

/-!
SUPPORT. The cascade: how new hand-overs join those that wait, who sends and takes them, what no cascade moves (R196).
-/
namespace Sys2Proof.Machine

/-! ### New hand-overs join those that wait -/

theorem queueUp_perm (new waiting : List Handover) : (queueUp new waiting).Perm (new ++ waiting) := by
  induction waiting generalizing new with
  | nil => rw [queueUp_nil, List.append_nil]
  | cons r rest ih =>
    have split := List.filter_append_perm (fun m : Handover => (r :: rest).any m.follows) new
    unfold queueUp
    refine (List.Perm.append_left _ ((ih _).cons r)).trans ?_
    refine (List.Perm.append_left _ List.perm_middle.symm).trans ?_
    rw [← List.append_assoc]
    exact (List.perm_append_comm.trans split).append_right _

theorem sublist_queueUp (new waiting : List Handover) : waiting.Sublist (queueUp new waiting) := by
  induction waiting generalizing new with
  | nil => exact List.nil_sublist _
  | cons r rest ih => exact ((ih _).cons_cons r).trans (List.sublist_append_right _ _)

/-- The hand-overs of one sender to one receiver. -/
def Handover.made (a b : Block) (m : Handover) : Bool := decide (m.sender = a) && decide (m.receiver = b)

theorem made_iff (a b : Block) (m : Handover) : m.made a b = true ↔ m.sender = a ∧ m.receiver = b := by
  simp [Handover.made]

theorem follows_of_made {a b : Block} {m r : Handover} (hm : m.made a b = true) (hr : r.made a b = true) :
    m.follows r = true := by
  obtain ⟨ms, mr⟩ := (made_iff a b m).1 hm
  obtain ⟨rs, rr⟩ := (made_iff a b r).1 hr
  simp [Handover.follows, ms, mr, rs, rr]

theorem made_of_follows {a b : Block} {m r : Handover} (hm : m.made a b = true) (follows : m.follows r = true) :
    r.made a b = true := by
  obtain ⟨ms, mr⟩ := (made_iff a b m).1 hm
  simp only [Handover.follows, Bool.and_eq_true, decide_eq_true_eq] at follows
  exact (made_iff a b r).2 ⟨follows.1 ▸ ms, follows.2 ▸ mr⟩

/-- One sender's hand-overs to one receiver keep the order in which they were made. -/
theorem filter_made_queueUp (a b : Block) (new waiting : List Handover) :
    (queueUp new waiting).filter (Handover.made a b) =
      waiting.filter (Handover.made a b) ++ new.filter (Handover.made a b) := by
  induction waiting generalizing new with
  | nil => rfl
  | cons r rest ih =>
    rw [queueUp, List.filter_append, List.filter_cons, ih, List.filter_cons, List.filter_filter, List.filter_filter]
    by_cases some_ : ∃ q ∈ r :: rest, q.made a b = true
    · obtain ⟨q, mem, made⟩ := some_
      have follows : ∀ m : Handover, m.made a b = true → (r :: rest).any m.follows = true := fun m hm =>
        List.any_eq_true.2 ⟨q, mem, follows_of_made hm made⟩
      have front : new.filter (fun m => m.made a b && !(r :: rest).any m.follows) = [] :=
        List.filter_eq_nil_iff.2 fun m _ h => by
          simp only [Bool.and_eq_true, Bool.not_eq_true'] at h
          exact absurd (follows m h.1) (by rw [h.2]; decide)
      have back : new.filter (fun m => m.made a b && (r :: rest).any m.follows) = new.filter (Handover.made a b) :=
        List.filter_congr fun m _ => by
          cases h : m.made a b with
          | false => rfl
          | true => rw [follows m h]; rfl
      rw [front, back]
      split <;> rfl
    · have none_ : ∀ q ∈ r :: rest, ¬q.made a b = true := fun q mem made => some_ ⟨q, mem, made⟩
      have free : ∀ m : Handover, m.made a b = true → (r :: rest).any m.follows = false := fun m hm =>
        List.any_eq_false.2 fun q mem follows => none_ q mem (made_of_follows hm follows)
      have front : new.filter (fun m => m.made a b && !(r :: rest).any m.follows) = new.filter (Handover.made a b) :=
        List.filter_congr fun m _ => by
          cases h : m.made a b with
          | false => rfl
          | true => rw [free m h]; rfl
      have back : new.filter (fun m => m.made a b && (r :: rest).any m.follows) = [] :=
        List.filter_eq_nil_iff.2 fun m _ h => by
          simp only [Bool.and_eq_true] at h
          exact absurd h.2 (by rw [free m h.1]; decide)
      have own : r.made a b = false := Bool.eq_false_iff.2 (none_ r List.mem_cons_self)
      rw [front, back, own, List.filter_eq_nil_iff.2 fun q mem => none_ q (List.mem_cons_of_mem r mem)]
      simp

/-- New hand-overs that follow none of those that wait stand before them all. -/
theorem free_prefix_queueUp (new waiting : List Handover) :
    new.filter (fun m => waiting.all fun r =>
      decide (m.sender ≠ r.sender) || decide (m.receiver ≠ r.receiver)) <+: queueUp new waiting := by
  cases waiting with
  | nil =>
    have all : new.filter (fun _ => true) = new := List.filter_eq_self.2 fun _ _ => rfl
    exact ⟨[], (List.append_nil _).trans all⟩
  | cons r rest =>
    have free : ∀ m : Handover, ((r :: rest).all fun q =>
        decide (m.sender ≠ q.sender) || decide (m.receiver ≠ q.receiver)) = !(r :: rest).any m.follows := by
      intro m
      rw [List.not_any_eq_all_not]
      refine congrArg (r :: rest).all (funext fun q => ?_)
      rw [Handover.follows, Bool.not_and, decide_not, decide_not]
    simp only [free]
    exact List.prefix_append _ _

/-! ### Who sends and who takes a hand-over -/

theorem Handover.sender_present (vs : List (Fin 24 × Bool)) : (Handover.present vs).sender =
    if ∃ p ∈ vs, p.1 = 0 ∨ p.1 = 12 ∨ p.1 = 13 then .srx else .ben :=
  ite_congr_iff (by simp [or_assoc]) rfl rfl

theorem Handover.sender_raise (c : Fin 24) (n : Nat) : (Handover.raise c n).sender =
    if c = 5 ∨ c = 7 then .gsd else if c = 8 then .fdc else .chu :=
  ite_congr_iff (by simp) rfl rfl

/-- Settles O4: one hand-over at a time, the queue's order, senders and receivers, and the frame of a cascade. -/
theorem cascadesTakeHandoversInOrder : Obligations.CascadesTakeHandoversInOrder := by
  refine ⟨drain_nil, drain_cons, fun new waiting => ⟨queueUp_perm new waiting, sublist_queueUp new waiting,
    fun a b => filter_made_queueUp a b new waiting, free_prefix_queueUp new waiting⟩, fun m => ⟨?_, ?_⟩, fun u => ?_⟩
  · cases m with
    | present vs => exact Handover.sender_present vs
    | raise c n => exact Handover.sender_raise c n
    | chainUnitEnd n unit ok => cases unit <;> rfl
    | _ => rfl
  · cases m with
    | startResponse c k => cases k <;> rfl
    | _ => rfl
  · have q : Quiet u (cascade u) := Quiet.drain _ u
    intro t
    refine ⟨q.resetLow, q.tick, q.lineRate, q.srx, q.sst, q.pending, q.record, q.ring, q.starts, q.passNumber, q.plants,
      q.ctxLine, q.silent, q.fault, q.refreshCount, q.auto, q.faultLatch, q.reply, q.slots, q.line, q.partialFrame,
      q.sequence, fun g => ?_, fun f => ?_⟩
    · have outer := q.sets g
      simp only [SetRec.outer, Prod.mk.injEq] at outer
      exact outer
    · have outer := q.feeders f
      simp only [FeederRec.outer, Prod.mk.injEq] at outer
      exact outer

end Sys2Proof.Machine

/-!
SUPPORT. READ: the records that fit, the range of a class, the items of a row, the records field by field (R185).
-/
namespace Sys2Proof.Machine

/-! ### The records that fit -/

/-- What fits is a front part of the records: within the room, and with one record more past it. -/
theorem fitting_eq_take (room : Nat) (l : List (List Byte)) : ∃ n, n ≤ l.length ∧ fitting room l = l.take n ∧
    (l.take n).flatten.length ≤ room ∧ (n < l.length → room < (l.take (n + 1)).flatten.length) ∧
    ((∀ r ∈ l.head?, r.length ≤ room) → l ≠ [] → 1 ≤ n) := by
  induction l generalizing room with
  | nil => exact ⟨0, Nat.le_refl 0, rfl, Nat.zero_le _, fun h => absurd h (by decide), fun _ h => absurd rfl h⟩
  | cons r rest ih =>
    unfold fitting
    split
    · next fits =>
      obtain ⟨n, le, eq, within, past, -⟩ := ih (room - r.length)
      refine ⟨n + 1, Nat.succ_le_succ le, by rw [eq]; rfl, ?_, fun more => ?_, fun _ _ => Nat.succ_le_succ n.zero_le⟩
      · rw [List.take_succ_cons, List.flatten_cons, List.length_append]; omega
      · have := past (Nat.lt_of_succ_lt_succ more)
        rw [List.take_succ_cons, List.flatten_cons, List.length_append]; omega
    · next big =>
      refine ⟨0, Nat.zero_le _, rfl, Nat.zero_le _, fun _ => ?_, fun h _ => absurd (h r rfl) big⟩
      rw [Nat.zero_add, List.take_succ_cons, List.take_zero, List.flatten_singleton]
      exact Nat.lt_of_not_le big

/-- Records of one length: as many as the room divided by it. -/
theorem fitting_const {k : Nat} (positive : 0 < k) (room : Nat) {l : List (List Byte)} (len : ∀ r ∈ l, r.length = k) :
    fitting room l = l.take (room / k) := by
  induction l generalizing room with
  | nil => rw [fitting, List.take_nil]
  | cons r rest ih =>
    have own : r.length = k := len r List.mem_cons_self
    unfold fitting
    rw [own]
    split
    · next fits =>
      have step : room / k = (room - k) / k + 1 := by
        rw [← Nat.add_div_right _ positive, Nat.sub_add_cancel fits]
      rw [ih _ fun r hr => len r (List.mem_cons_of_mem _ hr), step, List.take_succ_cons]
    · next big => rw [Nat.div_eq_of_lt (Nat.lt_of_not_le big), List.take_zero]

/-! ### The range of a class -/

theorem filter_range (n lo k : Nat) (within : lo + k ≤ n) :
    (List.range n).filter (fun i => decide (lo ≤ i ∧ i < lo + k)) = List.range' lo k := by
  obtain ⟨m, rfl⟩ := Nat.exists_eq_add_of_le within
  have parts : List.range (lo + k + m) = List.range' 0 lo ++ List.range' lo k ++ List.range' (lo + k) m := by
    rw [List.range_eq_range']
    simpa using (List.range'_append_1 (s := 0) (m := lo + k) (n := m)).symm.trans
      (congrArg (· ++ _) (List.range'_append_1 (s := 0) (m := lo) (n := k)).symm)
  rw [parts, List.filter_append, List.filter_append,
    List.filter_eq_nil_iff.2 fun i h => by simp [List.mem_range'_1] at h ⊢; omega,
    List.filter_eq_self.2 fun i h => by simp [List.mem_range'_1] at h ⊢; omega,
    List.filter_eq_nil_iff.2 fun i h => by simp [List.mem_range'_1] at h ⊢; omega]
  simp

/-- The record of the member with a number, where the class is numbered from `base`. -/
def numbered {n : Nat} (base : Nat) (record : Fin n → List Byte) (m : Nat) : List Byte :=
  if h : m - base < n then record ⟨m - base, h⟩ else []

theorem finRange_vals (n : Nat) : (List.finRange n).map Fin.val = List.range n :=
  List.ext_getElem (by simp) fun i _ _ => by simp

theorem classRecords_some {n base a b : Nat} (record : Fin n → List Byte) (low : base ≤ a) (order : a ≤ b)
    (high : b < base + n) :
    classRecords base record a b = some ((List.range (b - a + 1)).map fun i => numbered base record (a + i)) := by
  have member : ∀ i : Fin n, record i = numbered base record (base + i.val) := fun i => by
    have at_ : base + i.val - base = i.val := Nat.add_sub_cancel_left ..
    unfold numbered
    rw [dif_pos (by rw [at_]; exact i.isLt)]
    exact congrArg record (Fin.ext at_.symm)
  have vals : ((List.finRange n).filter fun i => decide (a ≤ base + i.val ∧ base + i.val ≤ b)).map Fin.val =
      List.range' (a - base) (b - a + 1) := by
    rw [← filter_range n (a - base) (b - a + 1) (by omega), ← finRange_vals, List.filter_map]
    refine congrArg (List.map Fin.val) (List.filter_congr fun i _ => decide_eq_decide.2 ?_)
    omega
  unfold classRecords
  rw [if_pos ⟨low, order, high⟩]
  refine congrArg some ?_
  calc _ = (((List.finRange n).filter fun i => decide (a ≤ base + i.val ∧ base + i.val ≤ b)).map Fin.val).map
        fun m => numbered base record (base + m) := by
          rw [List.map_map]; exact List.map_congr_left fun i _ => member i
    _ = _ := by
      rw [vals, List.range'_eq_map_range, List.map_map]
      exact List.map_congr_left fun i _ => congrArg (numbered base record) (by dsimp only; omega)

/-! ### The length of a record -/

theorem bytes32_length (w : Word) : (bytes32 w).length = 4 := rfl

theorem sBytes_length (vs : List Int) : (sBytes vs).length = 4 * vs.length := by
  unfold sBytes
  rw [List.length_flatMap]
  simp only [bytes32_length, List.map_const', List.sum_replicate_nat, Nat.mul_comm]

theorem optBytes_length (v : Option Int) : (optBytes v).length = 4 := rfl

theorem optUBytes_length (v : Option Word) : (optUBytes v).length = 5 := by
  unfold optUBytes; split <;> rfl

theorem timerBytes_length (s : State) (t : Option Tick) : (timerBytes s t).length = 4 := rfl

theorem flagBytes_length (bs : List Bool) : (flagBytes bs).length = 4 * bs.length := by
  unfold flagBytes; rw [sBytes_length, List.length_map]

theorem shedList_length (s : State) (l : Fin 4) : (s.shedList l).length ≤ 16 :=
  calc (s.shedList l).length
    _ ≤ _ := List.length_filterMap_le ..
    _ ≤ ((List.finRange 17).tail.map fun f => s.setting (.shed l f)).length := List.length_take_le' ..
    _ = 16 := by rw [List.length_map]; rfl

section
variable (s : State)

theorem headRecord_length (h : Fin 31) : (headRecord s h).length ≤ 236 := by
  unfold headRecord
  dsimp only
  split <;> simp [sBytes_length, optBytes_length]

theorem setRecord_length (g : Fin 6) : (setRecord s g).length ≤ 236 := by
  simp [setRecord, sBytes_length, optBytes_length, optUBytes_length, timerBytes_length, flagBytes_length, bytes32_length]

theorem plantRecord_length (p : Fin 8) : (plantRecord s p).length ≤ 236 := by
  simp [plantRecord, sBytes_length, optBytes_length]

theorem feederRecord_length (f : Fin 16) : (feederRecord s f).length ≤ 236 := by
  simp [feederRecord, sBytes_length, optBytes_length, timerBytes_length, flagBytes_length]

theorem chainRecord_length (n : Fin 6) : (chainRecord s n).length ≤ 236 := by
  simp [chainRecord, sBytes_length, optBytes_length, flagBytes_length]

theorem condRecord_length (c : Fin 24) : (condRecord s c).length ≤ 236 := by
  simp [condRecord, sBytes_length, optBytes_length, timerBytes_length, flagBytes_length]

theorem shedRecord_length (l : Fin 4) : (shedRecord s l).length ≤ 236 := by
  have := shedList_length s l
  unfold shedRecord listBytes
  rw [sBytes_length, List.length_cons, List.length_map]
  omega

end

theorem numbered_length {n : Nat} (base : Nat) {record : Fin n → List Byte} (short : ∀ i, (record i).length ≤ 236) (m : Nat) :
    (numbered base record m).length ≤ 236 := by
  unfold numbered
  split
  · exact short _
  · exact Nat.zero_le _

/-! ### The records field by field -/

section
variable (s : State)

theorem headRecord_fields (h : Fin 31) : headRecord s h = sBytes [(h.val : Int)] ++ optBytes (s.srx.heads.get h).value ++
    sBytes [((s.srx.heads.get h).stamp.toNat : Int), ((s.srx.heads.get h).framesSince : Int),
      if (s.srx.heads.get h).judgement = .fresh then 0 else 1] ++
    if h = 0 then sBytes [(s.srx.lastKind.code : Int)] else [] := by
  have code : (s.srx.heads.get h).judgement.code = if (s.srx.heads.get h).judgement = .fresh then 0 else 1 := by
    cases (s.srx.heads.get h).judgement <;> rfl
  rw [← code]
  unfold headRecord
  exact congrArg (_ ++ ·) (ite_congr_iff (Fin.ext_iff (a := h) (b := 0)).symm rfl rfl)

theorem map_natCast {α : Type} (o : Option α) (f : α → Nat) : (o.map fun a => (f a : Int)) = (o.map f).map Int.ofNat := by
  cases o <;> rfl

/-! ### What a READ body asks for -/

/-- The numbers of a class. -/
def readLow (cls : Nat) : Nat := if cls = 1 ∨ cls = 2 ∨ cls = 3 then 1 else 0

def readHigh (cls : Nat) : Nat := match cls with
  | 0 => 30 | 1 => 6 | 2 => 8 | 3 => 16 | 4 => 5 | 5 => 23 | _ => 3

/-- The record of a class with a number. -/
def readRecord (cls n : Nat) : List Byte := match cls with
  | 0 => numbered 0 (headRecord s) n
  | 1 => numbered 1 (setRecord s) n
  | 2 => numbered 1 (plantRecord s) n
  | 3 => numbered 1 (feederRecord s) n
  | 4 => numbered 0 (chainRecord s) n
  | 5 => numbered 0 (condRecord s) n
  | _ => numbered 0 (shedRecord s) n

theorem readRecord_length (cls n : Nat) : (readRecord s cls n).length ≤ 236 := by
  unfold readRecord
  split
  · exact numbered_length 0 (headRecord_length s) n
  · exact numbered_length 1 (setRecord_length s) n
  · exact numbered_length 1 (plantRecord_length s) n
  · exact numbered_length 1 (feederRecord_length s) n
  · exact numbered_length 0 (chainRecord_length s) n
  · exact numbered_length 0 (condRecord_length s) n
  · exact numbered_length 0 (shedRecord_length s) n

/-- The records that a class holds between two numbers, or none where the range is refused. -/
def classBetween (cls a b : Nat) : Option (List (List Byte)) := match cls with
  | 0 => classRecords 0 (headRecord s) a b
  | 1 => classRecords 1 (setRecord s) a b
  | 2 => classRecords 1 (plantRecord s) a b
  | 3 => classRecords 1 (feederRecord s) a b
  | 4 => classRecords 0 (chainRecord s) a b
  | 5 => classRecords 0 (condRecord s) a b
  | 6 => classRecords 0 (shedRecord s) a b
  | _ => none

theorem classRecords_none {n base a b : Nat} (record : Fin n → List Byte) (outside : ¬(base ≤ a ∧ a ≤ b ∧ b < base + n)) :
    classRecords base record a b = none := if_neg outside

theorem classBetween_some {cls a b : Nat} (known : cls < 7) (low : readLow cls ≤ a) (order : a ≤ b)
    (high : b ≤ readHigh cls) :
    classBetween s cls a b = some ((List.range (b - a + 1)).map fun i => readRecord s cls (a + i)) := by
  match cls, known, low, high with
  | 0, _, low, high => exact classRecords_some _ low order (Nat.lt_succ_of_le high)
  | 1, _, low, high => exact classRecords_some _ low order (Nat.lt_succ_of_le high)
  | 2, _, low, high => exact classRecords_some _ low order (Nat.lt_succ_of_le high)
  | 3, _, low, high => exact classRecords_some _ low order (Nat.lt_succ_of_le high)
  | 4, _, low, high => exact classRecords_some _ low order (Nat.lt_succ_of_le high)
  | 5, _, low, high => exact classRecords_some _ low order (Nat.lt_succ_of_le high)
  | 6, _, low, high => exact classRecords_some _ low order (Nat.lt_succ_of_le high)

theorem classBetween_none {cls a b : Nat} (outside : ¬(cls < 7 ∧ readLow cls ≤ a ∧ a ≤ b ∧ b ≤ readHigh cls)) :
    classBetween s cls a b = none := by
  have refused : ∀ {n base : Nat}, readLow cls = base → readHigh cls + 1 = base + n → cls < 7 →
      ¬(base ≤ a ∧ a ≤ b ∧ b < base + n) := fun low high known h => outside ⟨known, by omega, h.2.1, by omega⟩
  unfold classBetween
  split
  case h_8 => rfl
  all_goals exact classRecords_none _ (refused rfl rfl (by decide))

theorem condSettings (c : Fin 24) : (List.finRange 6).map (fun f => s.setting (.cond c f)) =
    [s.setting (.cond c 0), s.setting (.cond c 1), s.setting (.cond c 2), s.setting (.cond c 3),
      s.setting (.cond c 4), s.setting (.cond c 5)] := rfl

end

/-! ### The items of a row -/

theorem allPresent_some {α : Type} (l : List α) : allPresent (l.map some) = some l := by
  induction l with
  | nil => rfl
  | cons a l ih => rw [List.map_cons, allPresent, ih]; rfl

theorem allPresent_none {α : Type} {l : List (Option α)} (absent : none ∈ l) : allPresent l = none := by
  induction l with
  | nil => cases absent
  | cons a l ih =>
    cases a with
    | none => rfl
    | some a =>
      have later : none ∈ l := (List.mem_cons.1 absent).resolve_left (by simp)
      rw [allPresent, ih later]; rfl

theorem rowItems_some {table row a b : Nat} {items : List ItemName} (order : a ≤ b) (count : items.length = b - a + 1)
    (named : ∀ i (h : i < items.length), itemOfCodes table row (a + i) = some items[i]) :
    rowItems table row a b = some items := by
  have listed : (List.range (b - a + 1)).map (fun i => itemOfCodes table row (a + i)) = items.map some := by
    refine List.ext_getElem (by simp [count]) fun i h h' => ?_
    rw [List.getElem_map, List.getElem_range, List.getElem_map]
    exact named i (by simpa using h')
  unfold rowItems
  rw [if_pos order, listed, allPresent_some]

theorem rowItems_none {table row a b : Nat}
    (absent : b < a ∨ ∃ i, a ≤ i ∧ i ≤ b ∧ itemOfCodes table row i = none) : rowItems table row a b = none := by
  unfold rowItems
  split
  · next order =>
    obtain ⟨i, lo, hi, none_⟩ := absent.resolve_left (Nat.not_lt.2 order)
    refine allPresent_none (List.mem_map.2 ⟨i - a, List.mem_range.2 (by omega), ?_⟩)
    rw [Nat.add_sub_cancel' lo, none_]
  · rfl

/-! ### The request -/

section
variable {s : State} {tag : Byte} {body : List Byte}

theorem exec_read {records : List (List Byte)} (ht : s.takes 0x02 tag body) (fits : readFits body = true)
    (asked : readRecords s.taken body = some records) :
    exec (.read tag body) s = .next (s.taken.replied 0x82 tag (0 :: byteOf (param body 0) :: byteOf (readFirst body) ::
      byteOf (fitting 236 records).length :: (fitting 236 records).flatten)) := by
  refine request_answered (readAct body) (t := s.taken) (st := .ok) ht fits (fun reply => ?_) rfl
  rw [readAct, asked]
  rfl

theorem exec_read_range (ht : s.takes 0x02 tag body) (fits : readFits body = true)
    (refused : readRecords s.taken body = none) :
    exec (.read tag body) s = .next (s.taken.replied 0x82 tag [4]) := by
  refine request_answered (readAct body) (t := s.taken) (st := .range) (values := []) ht fits (fun reply => ?_) rfl
  rw [readAct, refused]

theorem byteOf_toNat_self (b : Byte) : byteOf b.toNat = b := BitVec.ofNat_toNat 8 b |>.trans (BitVec.setWidth_eq b)

theorem readRecords_class {cls first last : Byte} (other : cls.toNat ≠ 7) :
    readRecords s [cls, first, last] = classBetween s cls.toNat first.toNat last.toNat := by
  have cls_ : param [cls, first, last] 0 = cls.toNat := rfl
  have first_ : param [cls, first, last] 1 = first.toNat := rfl
  have last_ : param [cls, first, last] 2 = last.toNat := rfl
  unfold readRecords
  rw [cls_, first_, last_]
  generalize cls.toNat = c at other
  match c, other with
  | 0, _ => rfl
  | 1, _ => rfl
  | 2, _ => rfl
  | 3, _ => rfl
  | 4, _ => rfl
  | 5, _ => rfl
  | 6, _ => rfl
  | 7, other => exact absurd rfl other
  | n + 8, _ => rfl

theorem readFits_class {cls first last : Byte} (other : cls.toNat ≠ 7) : readFits [cls, first, last] = true := by
  have no : ¬(0 < 3 ∧ cls.toNat = 7) := fun h => other h.2
  exact decide_eq_true (if_neg no).symm

theorem readFirst_class {cls first last : Byte} (other : cls.toNat ≠ 7) :
    readFirst [cls, first, last] = first.toNat := if_neg other

/-- Records of a class: as many whole ones as fit. -/
theorem exec_read_class {cls first last : Byte} (ht : s.takes 0x02 tag [cls, first, last]) (known : cls.toNat < 7)
    (low : readLow cls.toNat ≤ first.toNat) (order : first.toNat ≤ last.toNat) (high : last.toNat ≤ readHigh cls.toNat) :
    ∃ n, 1 ≤ n ∧ n ≤ last.toNat - first.toNat + 1 ∧
      exec (.read tag [cls, first, last]) s = .next (s.taken.replied 0x82 tag (0 :: cls :: first :: byteOf n ::
        (List.range n).flatMap fun i => readRecord s cls.toNat (first.toNat + i))) ∧
      4 + ((List.range n).flatMap fun i => readRecord s cls.toNat (first.toNat + i)).length ≤ 240 ∧
      (n < last.toNat - first.toNat + 1 →
        240 < 4 + ((List.range (n + 1)).flatMap fun i => readRecord s cls.toNat (first.toNat + i)).length) := by
  have other : cls.toNat ≠ 7 := by omega
  have asked : readRecords s.taken [cls, first, last] = some ((List.range (last.toNat - first.toNat + 1)).map fun i =>
      readRecord s cls.toNat (first.toNat + i)) :=
    (readRecords_class other).trans (classBetween_some s known low order high)
  have front : ∀ n ≤ last.toNat - first.toNat + 1, (((List.range (last.toNat - first.toNat + 1)).map fun i =>
      readRecord s cls.toNat (first.toNat + i)).take n).flatten =
      (List.range n).flatMap fun i => readRecord s cls.toNat (first.toNat + i) := fun n le => by
    rw [← List.map_take, List.take_range, Nat.min_eq_left le, List.flatMap_def]
  obtain ⟨n, le, eq, within, past, one⟩ := fitting_eq_take 236 ((List.range (last.toNat - first.toNat + 1)).map fun i =>
    readRecord s cls.toNat (first.toNat + i))
  rw [List.length_map, List.length_range] at le past
  rw [front n le] at within
  refine ⟨n, one (fun r mem => ?_) (by simp), le, ?_, by omega, fun more => ?_⟩
  · obtain ⟨i, -, rfl⟩ := List.mem_map.1 (List.mem_of_mem_head? mem)
    exact readRecord_length s _ _
  · rw [exec_read ht (readFits_class other) asked, eq, front n le, readFirst_class other, List.length_take,
      List.length_map, List.length_range, Nat.min_eq_left le, byteOf_toNat_self]
    have cls_ : byteOf (param [cls, first, last] 0) = cls := byteOf_toNat_self cls
    rw [cls_]
  · have := past more
    rw [front (n + 1) (by omega)] at this
    omega

/-- Items of a row: 29 at the most. -/
theorem exec_read_items {table row first last : Byte} (ht : s.takes 0x02 tag [7, table, row, first, last])
    {items : List ItemName} (asked : rowItems table.toNat row.toNat first.toNat last.toNat = some items) :
    exec (.read tag [7, table, row, first, last]) s = .next (s.taken.replied 0x82 tag (0 :: 7 :: first ::
      byteOf (min items.length 29) :: (items.take 29).flatMap fun k => itemBytes k (s.sst.image.get k))) := by
  have records : readRecords s.taken [7, table, row, first, last] = some (items.map (itemRecord s)) := by
    change (rowItems table.toNat row.toNat first.toNat last.toNat).map _ = _
    rw [asked]; rfl
  have eight : ∀ r ∈ items.map (itemRecord s), r.length = 8 := fun r mem => by
    obtain ⟨k, -, rfl⟩ := List.mem_map.1 mem
    exact itemBytes_length k _
  have first_ : byteOf (readFirst [7, table, row, first, last]) = first := byteOf_toNat_self first
  rw [exec_read ht rfl records, fitting_const (by decide) 236 eight, ← List.map_take, List.length_map, List.length_take,
    first_, ← List.flatMap_def, Nat.min_comm]
  rfl

end

/-- Settles O23: the records field by field, the classes, the items of a row. -/
theorem readReturnsRecords : Obligations.ReadReturnsRecords := by
  refine ⟨fun s => ?_, fun s tag cls first last ht other => ?_, fun s tag table row first last ht => ⟨?_, fun absent => ?_⟩⟩
  · refine ⟨headRecord_fields s, fun g => ?_, fun p => rfl, fun f => ?_, fun n => ?_, fun c => ?_, fun l => ?_⟩
    · unfold setRecord
      simp only [flagBytes, List.map_cons, List.map_nil, List.append_assoc, ← sBytes_append, List.cons_append, List.nil_append]
      rfl
    · have need : s.need f = (s.feederRec f).preShed.getD (s.feederNominal f) := by
        unfold State.need; cases (s.feederRec f).preShed <;> rfl
      unfold feederRecord
      simp only [flagBytes, List.map_cons, List.map_nil, List.append_assoc, ← sBytes_append, List.cons_append, List.nil_append,
        need]
      rfl
    · unfold chainRecord
      simp only [flagBytes, List.map_cons, List.map_nil, List.append_assoc, ← sBytes_append, List.cons_append, List.nil_append,
        map_natCast]
    · unfold condRecord
      rw [condSettings]
      simp only [flagBytes, List.map_cons, List.map_nil, List.append_assoc, ← sBytes_append, List.cons_append, List.nil_append,
        isPresented_iff]
      rfl
    · unfold shedRecord listBytes
      rw [List.length_map]; rfl
  · refine ⟨fun ⟨known, low, order, high⟩ => ?_, fun outside => ?_⟩
    · exact exec_read_class ht known low order high
    · exact exec_read_range ht (readFits_class other) ((readRecords_class other).trans (classBetween_none s.taken outside))
  · intro items order count named
    exact exec_read_items ht (rowItems_some order count named)
  · refine exec_read_range ht rfl ?_
    change (rowItems table.toNat row.toNat first.toNat last.toNat).map _ = _
    rw [rowItems_none absent]; rfl

end Sys2Proof.Machine

/-!
SUPPORT. What the units and the chains give up at a mode change: the mapping taken afresh (R94, R120, R121, R143, R144).
-/
namespace Sys2Proof.Machine

/-! ### A set is mapped afresh (R120) -/

/-- The state the mapping gives a set with a row. -/
def State.mappedOf (s : State) (g : Fin 6) (r : SetRec) : SetState :=
  if !s.setInstalled g then .unavailable
  else if r.running then (if r.breaker then .online else .runUp)
  else if r.ready && !r.outOfService then .standby
  else .unavailable

theorem mappedSet_eq (s : State) (g : Fin 6) : s.mappedSet g = s.mappedOf g (s.setRec g) := rfl

theorem setInstalled_congr {s t : State} (image : t.sst.image = s.sst.image) : t.setInstalled = s.setInstalled := by
  unfold State.setInstalled State.setting
  rw [image]

theorem mappedOf_congr {s t : State} (image : t.sst.image = s.sst.image) : t.mappedOf = s.mappedOf := by
  unfold State.mappedOf
  rw [setInstalled_congr image]

/-- The row of a set that is mapped afresh. -/
def State.remapped (s : State) (g : Fin 6) (r : SetRec) : SetRec :=
  s.enterSet (s.mappedOf g r) { r with attempts := 0, retry := false }

theorem enterSet_congr {s t : State} (tick : t.tick = s.tick) (sst : t.sst = s.sst) : t.enterSet = s.enterSet := by
  funext new r
  have nat : ∀ f, t.sysNat f = s.sysNat f := sysNat_congr (congrArg Sst.image sst)
  simp only [enterSet_eq, setTimerFor_eq, State.dueIn, tick, nat, sst]

theorem remapped_congr {s t : State} (tick : t.tick = s.tick) (sst : t.sst = s.sst) : t.remapped = s.remapped := by
  unfold State.remapped
  rw [enterSet_congr tick sst, mappedOf_congr (congrArg Sst.image sst)]

/-- A set whose start and stop no one waits for. -/
def SetRec.unowned (r : SetRec) : Prop := r.origin = none ∧ r.stopOwner = none

/-- A state in which BSS is told of no move. -/
def State.unwatched (s : State) : Prop := s.sst.mode ≠ .run ∨ s.bss.program = .idle

theorem remapped_unowned {s : State} {g : Fin 6} {r : SetRec} (free : r.unowned) : (s.remapped g r).unowned := by
  unfold State.remapped SetRec.unowned
  rw [enterSet_eq]
  exact free

section
variable {g : Fin 6} {s : State}

theorem enterSet_enterSet (new : SetState) (r : SetRec) : s.enterSet new (s.enterSet new r) = s.enterSet new r := by
  simp only [enterSet_eq]
  split <;> rfl

theorem movedSet_unowned {r : SetRec} (new : SetState) (free : r.unowned) : s.movedSet new r = s.enterSet new r := by
  obtain ⟨origin, owner⟩ := free
  unfold State.movedSet
  rw [origin, owner, ite_self, ite_self, enterSet_eq]
  simp only [origin, owner]

theorem moveSet_unowned (new : SetState) (free : (s.setRec g).unowned) (changes : (s.setRec g).state ≠ new) :
    (moveSet g new s).setRec g = s.enterSet new (s.setRec g) := by
  rw [moveSet_changed changes, inMove_setRec, movedSet_unowned new free]

theorem moveSet_handovers (new : SetState) (free : (s.setRec g).unowned) (alone : s.unwatched) :
    (moveSet g new s).handovers = s.handovers := by
  by_cases stays : (s.setRec g).state = new
  · rw [moveSet, if_pos stays]
  · obtain ⟨origin, owner⟩ := free
    have none_ : s.moveReports g new (s.setRec g) = [] := by
      have told : ¬(s.sst.mode = .run ∧ s.bss.program ≠ .idle) := fun h => alone.elim (· h.1) h.2
      unfold State.moveReports
      rw [if_neg told, origin, owner, show startReport g (decide (new = .online)) none = [] from rfl,
        show stopReport g new none = [] from rfl, ite_self, ite_self]
      rfl
    have noticed : (rowNotice g (s.enterSet new (s.setRec g)) s).handovers = s.handovers := notify_handovers ..
    rw [moveSet_changed stays, none_, State.inMove]
    exact (List.append_nil _).trans noticed

/-- The set with attempts 0 and the retry mark clear, as it is before it is mapped. -/
def cleared (g : Fin 6) (s : State) : State := modSet g (fun r => { r with attempts := 0, retry := false }) s

theorem cleared_row : (cleared g s).setRec g = { s.setRec g with attempts := 0, retry := false } :=
  modSet_setRec_self ..

theorem remapSet_eq : remapSet g s = modSet g (fun r => (moveSet g (s.mappedSet g) (cleared g s)).enterSet r.state r)
    (moveSet g (s.mappedSet g) (cleared g s)) := by
  have mapped : (cleared g s).mappedSet g = s.mappedSet g := by
    rw [mappedSet_eq, cleared_row]; rfl
  rw [← mapped]; rfl

theorem remapSet_row (free : (s.setRec g).unowned) : (remapSet g s).setRec g = s.remapped g (s.setRec g) := by
  have walk : Walk [.gsd, .handovers] s (moveSet g (s.mappedSet g) (cleared g s)) :=
    (Walk.modSet (by decide) g _ s).trans (Walk.moveSet (by decide) (by decide) g _ _)
  have enters := enterSet_congr (walk.tick_eq (by decide)) (walk.sst_eq (by decide) (by decide))
  have same : (cleared g s).enterSet = s.enterSet := rfl
  have free' : ((cleared g s).setRec g).unowned := by rw [cleared_row]; exact free
  rw [remapSet_eq, modSet_setRec_self, enters, State.remapped, ← mappedSet_eq, moveSet_state, ← cleared_row]
  by_cases stays : ((cleared g s).setRec g).state = s.mappedSet g
  · rw [moveSet, if_pos stays]
  · rw [moveSet_unowned _ free' stays, same, enterSet_enterSet]

theorem remapSet_handovers (free : (s.setRec g).unowned) (alone : s.unwatched) :
    (remapSet g s).handovers = s.handovers := by
  have free' : ((cleared g s).setRec g).unowned := by rw [cleared_row]; exact free
  rw [remapSet_eq]
  exact moveSet_handovers (s := cleared g s) _ free' alone

end

/-! ### Every set is mapped afresh -/

/-- What the mapping of the sets of `s` keeps: no set is owned, and nothing is handed over. -/
def State.mapping (s t : State) : Prop :=
  t.tick = s.tick ∧ t.sst = s.sst ∧ t.bss = s.bss ∧ t.handovers = s.handovers ∧ ∀ g, (t.setRec g).unowned

theorem remapSet_mapping {s : State} (alone : s.unwatched) (g : Fin 6) (t : State) (here : s.mapping t) :
    s.mapping (remapSet g t) := by
  obtain ⟨tick, sst, bss, out, free⟩ := here
  have walk : Walk [.gsd, .handovers] t (remapSet g t) := Walk.remapSet (by decide) (by decide) g t
  refine ⟨(walk.tick_eq (by decide)).trans tick, (walk.sst_eq (by decide) (by decide)).trans sst,
    (walk.bss_eq (by decide)).trans bss, ?_, fun h => ?_⟩
  · exact (remapSet_handovers (free g) (by unfold State.unwatched at *; rw [sst, bss]; exact alone)).trans out
  · by_cases e : g = h
    · subst e; rw [remapSet_row (free g)]; exact remapped_unowned (free g)
    · rw [remapSet_other g h t e]; exact free h

theorem remapAll_row {s : State} (alone : s.unwatched) (free : ∀ g, (s.setRec g).unowned) (g : Fin 6) :
    (forAll 6 remapSet s).setRec g = s.remapped g (s.setRec g) :=
  forAll_rows remapSet State.setRec s.mapping s.remapped (remapSet_mapping alone)
    (fun i t ⟨tick, sst, _, _, free⟩ => by rw [remapSet_row (free i), remapped_congr tick sst])
    (fun i j t e => remapSet_other i j t e) ⟨rfl, rfl, rfl, rfl, free⟩ g

theorem remapAll_handovers {s : State} (alone : s.unwatched) (free : ∀ g, (s.setRec g).unowned) :
    (forAll 6 remapSet s).handovers = s.handovers := by
  obtain ⟨-, -, -, out, -⟩ : s.mapping (forAll 6 remapSet s) := List.foldlRecOn (motive := s.mapping) _ _
    ⟨rfl, rfl, rfl, rfl, free⟩ fun t here i _ => remapSet_mapping alone i t here
  exact out

/-! ### The units at DISENGAGE, SAFE and RESTART (R121, R144) -/

theorem remapped_off {s : State} (off : s.sst.mode ≠ .run) (g : Fin 6) (r : SetRec) :
    (s.remapped g r).timer = none ∧ (s.remapped g r).attempts = 0 ∧ (s.remapped g r).onlineMs = 0 := by
  unfold State.remapped
  rw [enterSet_eq, setTimerFor_eq, if_pos off]
  exact ⟨rfl, ite_self _, rfl⟩

theorem remapped_keeps (s : State) (g : Fin 6) (r : SetRec) :
    (s.remapped g r).state = s.mappedOf g r ∧ (s.remapped g r).retry = false ∧ (s.remapped g r).origin = r.origin ∧
    (s.remapped g r).stopOwner = r.stopOwner ∧ (s.remapped g r).runSeconds = r.runSeconds ∧
    (s.remapped g r).outOfService = r.outOfService ∧ (s.remapped g r).accumulator = r.accumulator := by
  unfold State.remapped
  rw [enterSet_eq]
  exact ⟨rfl, rfl, rfl, rfl, rfl, rfl, rfl⟩

/-- The row of a set without origin, stop owner and timer (R121). -/
def SetRec.released (r : SetRec) : SetRec := { r with origin := none, stopOwner := none, timer := none }

/-- The sets as they stand before they are mapped. -/
def State.setsLoose (s : State) : State := releaseSets (dropQueue s)

theorem setsLoose_row (s : State) (g : Fin 6) : s.setsLoose.setRec g = (s.setRec g).released := Tab.get_mapIdx ..

/-- The five items of R121. -/
def abandonSets (s : State) : State := dropQueue (forAll 6 remapSet s.setsLoose)

theorem gsdAbandon_eq (s : State) : gsdAbandon s = gsdEvent abandonSets s := rfl

theorem gsdEvent_handovers (f : State → State) (s : State) : (gsdEvent f s).handovers = (f s).handovers := rfl

theorem gsdEvent_dropped (f : State → State) (s : State) :
    (gsdEvent f s).gsd.queue = (f s).gsd.queue ∧ (gsdEvent f s).gsd.permits = (f s).gsd.permits := ⟨rfl, rfl⟩

theorem dropQueue_setRec (s : State) (g : Fin 6) : (dropQueue s).setRec g = s.setRec g := rfl

theorem dropQueue_handovers (s : State) : (dropQueue s).handovers = s.handovers := rfl

theorem dropQueue_gsd (s : State) : (dropQueue s).gsd.queue = [] ∧ (dropQueue s).gsd.permits = 0 := ⟨rfl, rfl⟩

theorem dropRestoreQueue_besideFeeders (s : State) : (dropRestoreQueue s).besideFeeders = s.besideFeeders := rfl

theorem dropRestoreQueue_feederRec (s : State) (f : Fin 16) : (dropRestoreQueue s).feederRec f = s.feederRec f := rfl

theorem dropRestoreQueue_queue (s : State) : (dropRestoreQueue s).fdc.queue = [] := rfl

theorem fdcEvent_besideFeeders (f : State → State) (s : State) :
    (fdcEvent f s).besideFeeders = (f s).besideFeeders := rfl

theorem fdcEvent_queue (f : State → State) (s : State) : (fdcEvent f s).fdc.queue = (f s).fdc.queue := rfl

section
variable {s : State}

/-- The row of a set after an event at GSD is the row of what the event does, but for the revision. -/
theorem gsdEvent_row_but_revision (f : State → State) (s : State) (g : Fin 6) : ∃ rev,
    (gsdEvent f s).setRec g = { (f s).setRec g with revision := rev } := by
  rw [gsdEvent_row]
  split
  · exact ⟨_, rfl⟩
  · exact ⟨_, rfl⟩

theorem fdcEvent_row_but_revision (f : State → State) (s : State) (i : Fin 16) : ∃ rev,
    (fdcEvent f s).feederRec i = { (f s).feederRec i with revision := rev } := by
  rw [fdcEvent_row]
  split
  · exact ⟨_, rfl⟩
  · exact ⟨_, rfl⟩

theorem setsLoose_unowned (s : State) (g : Fin 6) : (s.setsLoose.setRec g).unowned := by
  rw [setsLoose_row]; exact ⟨rfl, rfl⟩

theorem abandonSets_row (off : s.sst.mode ≠ .run) (g : Fin 6) :
    (abandonSets s).setRec g = s.remapped g (s.setRec g).released := by
  unfold abandonSets
  rw [dropQueue_setRec, remapAll_row (s := s.setsLoose) (.inl off) (setsLoose_unowned s), setsLoose_row]
  rfl

theorem gsdAbandon_row (off : s.sst.mode ≠ .run) (g : Fin 6) : ∃ rev,
    (gsdAbandon s).setRec g = { s.remapped g (s.setRec g).released with revision := rev } := by
  obtain ⟨rev, row⟩ := gsdEvent_row_but_revision abandonSets s g
  exact ⟨rev, by rw [gsdAbandon_eq, row, abandonSets_row off]⟩

theorem gsdAbandon_handovers (off : s.sst.mode ≠ .run) : (gsdAbandon s).handovers = s.handovers := by
  rw [gsdAbandon_eq, gsdEvent_handovers, abandonSets, dropQueue_handovers,
    remapAll_handovers (s := s.setsLoose) (.inl off) (setsLoose_unowned s)]
  rfl

theorem gsdAbandon_dropped (s : State) : (gsdAbandon s).gsd.queue = [] ∧ (gsdAbandon s).gsd.permits = 0 := by
  rw [gsdAbandon_eq, (gsdEvent_dropped ..).1, (gsdEvent_dropped ..).2]
  exact dropQueue_gsd _

/-- The feeders as they stand before they are mapped. -/
def State.feedersLoose (s : State) : State := releaseFeeders (dropRestoreQueue s)

theorem feedersLoose_row (s : State) (f : Fin 16) :
    s.feedersLoose.feederRec f = { s.feederRec f with origin := none, timer := none } := Tab.get_mapIdx ..

/-- The four items of R144. -/
def abandonFeeders (s : State) : State := dropRestoreQueue (forAll 16 mapFeeder s.feedersLoose)

theorem fdcAbandon_eq (s : State) : fdcAbandon s = fdcEvent abandonFeeders s := rfl

/-- The state the mapping gives a feeder with a row. -/
def State.mappedFeederOf (s : State) (f : Fin 16) (r : FeederRec) : FeederState :=
  if !s.feederInstalled f || r.outOfService then .outOfService else if r.breaker then .closed else .openExt

theorem mappedFeeder_eq (s : State) (f : Fin 16) : s.mappedFeeder f = s.mappedFeederOf f (s.feederRec f) := rfl

theorem mappedFeederOf_congr {s t : State} (image : t.sst.image = s.sst.image) : t.mappedFeederOf = s.mappedFeederOf := by
  unfold State.mappedFeederOf
  funext f r
  rw [feederInstalled_congr image]

/-- The row of a feeder that is mapped (R143). -/
def State.remappedFeeder (s : State) (f : Fin 16) (r : FeederRec) : FeederRec := { r with
  state := s.mappedFeederOf f r
  timer := if r.state = s.mappedFeederOf f r then r.timer else none
  preShed := if s.mappedFeederOf f r = .closed then none else r.preShed }

theorem mapAll_row (s : State) (f : Fin 16) :
    (forAll 16 mapFeeder s).feederRec f = s.remappedFeeder f (s.feederRec f) :=
  forAll_rows mapFeeder State.feederRec (fun t => t.sst.image = s.sst.image) s.remappedFeeder
    (fun i t here => ((Walk.mapFeeder (S := [.fdc]) (by decide) i t).image_eq (by decide)).trans here)
    (fun i t here => by rw [mapFeeder_self, mappedFeeder_eq, mappedFeederOf_congr here]; rfl)
    (fun i j t e => mapFeeder_other i j t e) rfl f

theorem mapFeeder_besideFeeders (f : Fin 16) (s : State) : (mapFeeder f s).besideFeeders = s.besideFeeders := by
  rw [mapFeeder_eq]
  split
  · exact moveFeeder_besideFeeders f _ s
  · exact moveFeeder_besideFeeders f _ s

theorem mapAll_besideFeeders (s : State) : (forAll 16 mapFeeder s).besideFeeders = s.besideFeeders :=
  forAll_keeps mapFeeder State.besideFeeders mapFeeder_besideFeeders s

theorem fdcAbandon_row (s : State) (f : Fin 16) : ∃ rev, (fdcAbandon s).feederRec f =
    { s.remappedFeeder f { s.feederRec f with origin := none, timer := none } with revision := rev } := by
  obtain ⟨rev, row⟩ := fdcEvent_row_but_revision abandonFeeders s f
  refine ⟨rev, ?_⟩
  rw [fdcAbandon_eq, row, abandonFeeders, dropRestoreQueue_feederRec, mapAll_row, feedersLoose_row]
  rfl

theorem fdcAbandon_besideFeeders (s : State) : (fdcAbandon s).besideFeeders = s.feedersLoose.besideFeeders := by
  rw [fdcAbandon_eq, fdcEvent_besideFeeders, abandonFeeders, dropRestoreQueue_besideFeeders, mapAll_besideFeeders]

theorem fdcAbandon_queue (s : State) : (fdcAbandon s).fdc.queue = [] := by
  rw [fdcAbandon_eq, fdcEvent_queue]
  exact dropRestoreQueue_queue _

theorem besideFeeders_clearFlag (s : State) : s.besideFeeders.1 = s.fdc.clearFlag := rfl

theorem besideFeeders_handovers (s : State) : s.besideFeeders.2.2.1 = s.handovers := rfl

theorem fdcAbandon_clearFlag (s : State) : (fdcAbandon s).fdc.clearFlag = false := by
  rw [← besideFeeders_clearFlag, fdcAbandon_besideFeeders]; rfl

end

/-- What the sets and feeders of `u` owe to the events at which GSD and FDC abandon their work. -/
theorem unitsReleased_of_abandon {s x y u : State} (off : x.sst.mode ≠ .run) (setsBefore : x.gsd = s.gsd)
    (setsImage : x.sst.image = s.sst.image) (sets : u.gsd = (gsdAbandon x).gsd) (feedersBefore : y.fdc = s.fdc)
    (feedersImage : y.sst.image = s.sst.image) (feeders : u.fdc = (fdcAbandon y).fdc) : unitsReleased s u := by
  obtain ⟨queue, permits⟩ := gsdAbandon_dropped x
  refine ⟨by rw [sets, queue], by rw [sets, permits], by rw [feeders, fdcAbandon_queue],
    by rw [feeders, fdcAbandon_clearFlag], fun g => ?_, fun f => ?_⟩
  · obtain ⟨rev, row⟩ := gsdAbandon_row off g
    have here : u.setRec g = (gsdAbandon x).setRec g := congrArg (fun d => d.sets.get g) sets
    have before : x.setRec g = s.setRec g := congrArg (fun d => d.sets.get g) setsBefore
    obtain ⟨timer, attempts, online⟩ := remapped_off off g (s.setRec g).released
    obtain ⟨state, retry, origin, owner, seconds, service, accumulator⟩ := remapped_keeps x g (s.setRec g).released
    rw [here, row, before]
    refine ⟨state.trans ?_, attempts, retry, timer, origin, owner, seconds, service, accumulator, online⟩
    rw [mappedOf_congr setsImage, mappedSet_eq]; rfl
  · obtain ⟨rev, row⟩ := fdcAbandon_row y f
    have here : u.feederRec f = (fdcAbandon y).feederRec f := congrArg (fun d => d.feeders.get f) feeders
    have before : y.feederRec f = s.feederRec f := congrArg (fun d => d.feeders.get f) feedersBefore
    have mapped : y.mappedFeederOf f { s.feederRec f with origin := none, timer := none } = s.mappedFeeder f := by
      rw [mappedFeederOf_congr feedersImage, mappedFeeder_eq]; rfl
    rw [here, row, before]
    refine ⟨mapped, rfl, ite_self _, ?_, rfl⟩
    rw [← mapped]; rfl

/-! ### The chains (R78, R94) -/

theorem notifyChain_chain (n m : Fin 6) (e : Int) (vs : List Word) (s : State) :
    (notifyChain n e vs s).chain m = s.chain m := congrArg (Tab.get · m) (notify_chains ..)

theorem abandonStep_idle {n : Fin 6} {s : State} (idle : (s.chain n).flight = none) : abandonStep n s = s :=
  if_pos (by rw [idle]; rfl)

theorem abandonStep_self (n : Fin 6) (s : State) : (abandonStep n s).chain n = abandoned (s.chain n) := by
  cases flight : (s.chain n).flight with
  | none => rw [abandonStep_idle flight, abandoned, flight]
  | some step =>
    unfold abandonStep
    rw [if_neg (by rw [flight]; exact Bool.false_ne_true), abandoned, flight]
    exact (notifyChain_chain ..).trans (modChain_chain_self ..)

theorem abandonStep_other (n m : Fin 6) (s : State) (other : n ≠ m) : (abandonStep n s).chain m = s.chain m := by
  unfold abandonStep
  dsimp only
  split
  · rfl
  · rw [notifyChain_chain, modChain_chain, if_neg other]

theorem chuAbandon_row (s : State) (n : Fin 6) : (chuAbandon s).chain n = abandoned (s.chain n) :=
  forAll_row abandonStep State.chain abandoned abandonStep_self abandonStep_other s n

/-- A chain before and after RESTART (R78, R81). -/
def chainRestarted (old c : Chain) : Prop :=
  c.count = 0 ∧ c.trigger = none ∧ c.flight = none ∧ c.kind = old.kind ∧ c.list = old.list ∧
  c.cursor = old.cursor ∧ c.mode = old.mode ∧ c.stepSize = old.stepSize ∧
  c.revision = (if old.count ≠ 0 ∨ old.trigger ≠ none ∨ old.flight ≠ none then old.revision + 1
    else old.revision)

theorem chuRestart_row (s : State) (n : Fin 6) : chainRestarted (s.chain n) ((chuRestart s).chain n) := by
  have row : (chuRestart s).chain n = { (chuAbandon s).chain n with
      count := 0, trigger := none
      revision := if (((chuAbandon s).chain n).count != 0 || ((chuAbandon s).chain n).trigger.isSome) &&
        (s.chain n).flight.isNone then ((chuAbandon s).chain n).revision + 1
        else ((chuAbandon s).chain n).revision } := Tab.get_mapIdx ..
  rw [row, chuAbandon_row]
  unfold chainRestarted
  cases flight : (s.chain n).flight with
  | none =>
    have same : abandoned (s.chain n) = s.chain n := by rw [abandoned, flight]
    rw [same]
    refine ⟨rfl, rfl, flight, rfl, rfl, rfl, rfl, rfl, ?_⟩
    refine ite_congr_iff ?_ rfl rfl
    simp [Option.isSome_iff_ne_none]
  | some step =>
    rw [abandoned, flight]
    refine ⟨rfl, rfl, rfl, rfl, rfl, rfl, rfl, rfl, ?_⟩
    simp

end Sys2Proof.Machine

/-!
SUPPORT. What a mode change leaves: CTX and BSS, the work abandoned, the entry to SAFE, the MODE notice (R52, R160, R167 to R169).
-/
namespace Sys2Proof.Machine

/-! ### CTX and BSS -/

section
variable (s : State)

theorem notifyChange_ctx (change v : Int) : (notifyChange change v s).ctx = s.ctx := notify_ctx ..

theorem clearForcedZero_ctx : (clearForcedZero s).ctx = { s.ctx with forcedZero := false } := by
  unfold clearForcedZero
  split
  · exact notifyChange_ctx ..
  · next clear => rw [← Bool.eq_false_iff.2 clear]

theorem endSilent_ctx : (endSilent s).ctx = { s.ctx with silent := none } := by
  unfold endSilent
  split
  · exact notifyChange_ctx ..
  · next idle =>
    have none_ : s.ctx.silent = none := by simpa using idle
    rw [← none_]

/-- What a program that is stopped leaves of its registers (R160). -/
def State.stoppedBss : Bss :=
  if s.bss.program = .idle then s.bss
  else ⟨.idle, none, s.bss.restarts, s.bss.tried, none, s.bss.firstSet, none, none, none, none, none⟩

theorem abortProgram_bss : (abortProgram s).bss = s.stoppedBss := by
  unfold State.stoppedBss
  split
  · next idle => rw [abortProgram_idle idle]
  · next runs =>
    have kept : ∀ t : State, (clearForcedZero t).bss = t.bss := fun t =>
      (Walk.clearForcedZero (S := [.ctx]) (by decide) t).bss_eq (by decide)
    rw [abortProgram_eq runs, kept, notify_bss]
    cases s.bss.holder with
    | none => rfl
    | some _ => exact notify_bss ..

theorem abortProgram_ctx : (abortProgram s).ctx =
    { s.ctx with forcedZero := if s.bss.program = .idle then s.ctx.forcedZero else false } := by
  by_cases idle : s.bss.program = .idle
  · rw [abortProgram_idle idle, if_pos idle]
  · rw [abortProgram_eq idle, clearForcedZero_ctx, notify_ctx, if_neg idle]
    cases s.bss.holder with
    | none => rfl
    | some _ => exact congrArg (fun c : Ctx => { c with forcedZero := false }) (notify_ctx ..)

end

theorem programStopped_of_bss {s u : State} (bss : u.bss = s.stoppedBss) : programStopped s u := by
  unfold programStopped State.stoppedBss at *
  split
  · next idle => rw [bss, if_pos idle]
  · next runs => rw [bss, if_neg runs]

/-! ### The work abandoned (R51, R73, R94, R121, R144, R160) -/

/-- The parts that the abandonment of work writes. -/
abbrev abandonParts : List Part := [.rsc, .chains, .gsd, .handovers, .fdc, .bss, .ctx]

/-- RSC with no active entry and every hold-off idle (R60, R73). -/
def State.idledRsc (s : State) : Rsc := { s.rsc with
  active := Tab.const 7 none, rows := s.rsc.rows.mapIdx fun _ r => { r with holdOff := none } }

theorem idledRsc_congr {s t : State} (rsc : t.rsc = s.rsc) : t.idledRsc = s.idledRsc := by
  unfold State.idledRsc; rw [rsc]

/-- What stands after every block has abandoned its work. -/
structure WorkAbandoned (s t : State) : Prop where
  units : unitsReleased s t
  bss : t.bss = s.stoppedBss
  chains : ∀ n, t.chain n = abandoned (s.chain n)
  handovers : t.handovers = s.handovers
  rsc : t.rsc = s.idledRsc
  ctx : t.ctx = { s.ctx with
    silent := none, forcedZero := if s.bss.program = .idle then s.ctx.forcedZero else false }
  walk : Walk abandonParts s t

theorem abandonWork_abandons {s : State} (off : s.sst.mode ≠ .run) : WorkAbandoned s (abandonWork s) := by
  let a := idleHoldOffs (clearActive s)
  let b := chuAbandon a
  let c := gsdAbandon b
  let d := fdcAbandon c
  have toB : Walk [.rsc, .chains] s b := ((Walk.clearActive (by decide) s).trans (Walk.idleHoldOffs (by decide) _)).trans
    (Walk.chuAbandon (by decide) a)
  have toC : Walk [.gsd, .handovers] b c := Walk.gsdAbandon (by decide) (by decide) b
  have toD : Walk [.fdc] c d := Walk.fdcAbandon (by decide) c
  have toEnd : Walk [.bss, .ctx] d (abandonWork s) :=
    (Walk.abortProgram (by decide) (by decide) d).trans (Walk.endSilent (by decide) _)
  have toD' : Walk [.rsc, .chains, .gsd, .handovers, .fdc] s d :=
    ((toB.mono (by decide)).trans (toC.mono (by decide))).trans (toD.mono (by decide))
  have offB : b.sst.mode ≠ .run := by rw [toB.sst_eq (by decide) (by decide)]; exact off
  have afterSets : Walk [.fdc, .bss, .ctx] c (abandonWork s) := (toD.mono (by decide)).trans (toEnd.mono (by decide))
  have afterChains : Walk [.gsd, .handovers, .fdc, .bss, .ctx] b (abandonWork s) :=
    (toC.mono (by decide)).trans (afterSets.mono (by decide))
  have bss : d.bss = s.bss := toD'.bss_eq (by decide)
  have ctx : d.ctx = s.ctx := toD'.ctx_eq (by decide)
  refine ⟨?_, ?_, fun n => ?_, ?_, ?_, ?_, ?_⟩
  · refine unitsReleased_of_abandon offB (toB.gsd_eq (by decide)) (toB.image_eq (by decide)) (afterSets.gsd_eq (by decide))
      ?_ ?_ (toEnd.fdc_eq (by decide))
    · rw [toC.fdc_eq (by decide), toB.fdc_eq (by decide)]
    · rw [toC.image_eq (by decide), toB.image_eq (by decide)]
  · have ended : (abandonWork s).bss = (abortProgram d).bss := (Walk.endSilent (S := [.ctx]) (by decide) _).bss_eq (by decide)
    rw [ended, abortProgram_bss, State.stoppedBss, bss, State.stoppedBss]
  · have row : (abandonWork s).chain n = b.chain n := congrArg (Tab.get · n) (afterChains.chains_eq (by decide))
    rw [row, chuAbandon_row]; rfl
  · rw [afterSets.handovers_eq (by decide), gsdAbandon_handovers offB, toB.handovers_eq (by decide)]
  · exact (afterChains.rsc_eq (by decide)).trans ((Walk.chuAbandon (S := [.chains]) (by decide) a).rsc_eq (by decide))
  · have ended : (abandonWork s).ctx = { (abortProgram d).ctx with silent := none } :=
      endSilent_ctx (abortProgram d)
    rw [ended, abortProgram_ctx, ctx, bss]
  · exact (toD'.mono (by decide)).trans (toEnd.mono (by decide))

/-! ### The entry to SAFE (R52, R56, R168) -/

/-- What CTX starts with in SAFE (R52). -/
def State.faultCtx (s : State) : Ctx := { s.ctx with
  silent := none, forcedZero := false
  fault := some ⟨fallbackOf (s.sys Sys.faultFallback), s.tick + 1000⟩
  waiting := Tab.ofFn fun p => fallbackCeiling s (fallbackOf (s.sys Sys.faultFallback)) p }

theorem fallbackCeiling_congr {s t : State} (image : t.sst.image = s.sst.image) (plants : t.ctx.plants = s.ctx.plants) :
    fallbackCeiling t = fallbackCeiling s := by
  unfold fallbackCeiling State.plantInstalled State.plantCapacity State.plantRow State.setting
  rw [image, plants]

theorem sys_congr {s t : State} (image : t.sst.image = s.sst.image) : t.sys = s.sys := by
  unfold State.sys State.setting; rw [image]

/-- The fallback that begins where nothing waits and forced-zero is clear. -/
theorem fallbackFill_waiting {s : State} (choice : Fallback) (clear : s.ctx.forcedZero = false)
    (empty : s.ctx.waiting = Tab.const 8 none) :
    fallbackFill choice s = { s with ctx.waiting := Tab.ofFn (fallbackCeiling s choice) } := by
  have picks : (Tab.ofFn fun p => (s.fallbackPick choice p).or (s.ctx.waiting.get p)) =
      Tab.ofFn (fallbackCeiling s choice) := Tab.ext_get fun p => by
    rw [Tab.get_ofFn, Tab.get_ofFn, empty, Tab.get_const, fallbackPick_eq, clear]
    cases fallbackCeiling s choice p <;> rfl
  rw [fallbackFill_eq, picks]

theorem beginFault_ctx {s : State} (clear : s.ctx.forcedZero = false) (idle : s.ctx.silent = none) :
    (beginFault s).ctx = s.faultCtx := by
  let begun : State := { emptyPending s with ctx.fault := some ⟨fallbackOf (s.sys Sys.faultFallback), s.tick + 1000⟩ }
  have stages : beginFault s = fallbackFill (fallbackOf (s.sys Sys.faultFallback)) begun := rfl
  rw [stages, fallbackFill_waiting (s := begun) _ clear rfl]
  unfold State.faultCtx
  rw [← clear, ← idle]
  rfl

theorem faultCtx_congr {s t : State} (image : t.sst.image = s.sst.image) (tick : t.tick = s.tick)
    (ctx : { t.ctx with silent := none, forcedZero := false } = { s.ctx with silent := none, forcedZero := false }) :
    t.faultCtx = s.faultCtx := by
  have plants := congrArg Ctx.plants ctx
  have ceilings := fallbackCeiling_congr image plants
  unfold State.faultCtx
  rw [sys_congr image, tick, ceilings]
  exact congrArg (fun c : Ctx => { c with
    fault := some ⟨fallbackOf (s.sys Sys.faultFallback), s.tick + 1000⟩
    waiting := Tab.ofFn fun p => fallbackCeiling s (fallbackOf (s.sys Sys.faultFallback)) p }) ctx

theorem unitsReleased_congr {s s' u u' : State} (gsd : s'.gsd = s.gsd) (fdc : s'.fdc = s.fdc)
    (image : s'.sst.image = s.sst.image) (gsd' : u'.gsd = u.gsd) (fdc' : u'.fdc = u.fdc) (units : unitsReleased s u) :
    unitsReleased s' u' := by
  have sets : ∀ g, s'.setRec g = s.setRec g := fun g => congrArg (fun d => d.sets.get g) gsd
  have feeders : ∀ f, s'.feederRec f = s.feederRec f := fun f => congrArg (fun d => d.feeders.get f) fdc
  have sets' : ∀ g, u'.setRec g = u.setRec g := fun g => congrArg (fun d => d.sets.get g) gsd'
  have feeders' : ∀ f, u'.feederRec f = u.feederRec f := fun f => congrArg (fun d => d.feeders.get f) fdc'
  have mapped : ∀ g, s'.mappedSet g = s.mappedSet g := fun g => by
    rw [mappedSet_eq, mappedOf_congr image, sets]; rfl
  have mapped' : ∀ f, s'.mappedFeeder f = s.mappedFeeder f := fun f => by
    rw [mappedFeeder_eq, mappedFeederOf_congr image, feeders]; rfl
  unfold unitsReleased
  simp only [sets, feeders, sets', feeders', mapped, mapped', gsd', fdc']
  exact units

/-- What stands after the entry to SAFE. -/
structure SafeEntered (s t : State) : Prop where
  units : unitsReleased s t
  bss : t.bss = s.stoppedBss
  chains : ∀ n, t.chain n = abandoned (s.chain n)
  handovers : t.handovers = s.handovers
  rsc : t.rsc = { s.idledRsc with auto := false }
  sst : t.sst = { s.sst with mode := .safe, scan := none }
  ctx : t.ctx = s.faultCtx

theorem enterSafe_enters (cause : ModeCause) (s : State) : SafeEntered s (enterSafe cause s) ∧
    Walk (.store :: abandonParts) (changeMode .safe cause s) (enterSafe cause s) := by
  let x : State := { changeMode .safe cause s with sst.scan := none, rsc.auto := false }
  have whole : enterSafe cause s = beginFault (clearForcedZero (abandonWork x)) := rfl
  have toX : Walk [.store, .rsc] (changeMode .safe cause s) x :=
    (Walk.store (by decide) _ { (changeMode .safe cause s).sst with scan := none } rfl).trans (Walk.rsc (by decide) _ _)
  have mode : (changeMode .safe cause s).sst = { s.sst with mode := .safe } := notify_sst ..
  have sst : x.sst = { s.sst with mode := .safe, scan := none } := congrArg (fun d : Sst => { d with scan := none }) mode
  have same : x.gsd = s.gsd ∧ x.fdc = s.fdc ∧ x.bss = s.bss ∧ x.chains = s.chains ∧ x.ctx = s.ctx ∧ x.tick = s.tick ∧
      x.handovers = s.handovers :=
    ⟨notify_gsd .., notify_fdc .., notify_bss .., notify_chains .., notify_ctx .., notify_tick .., notify_handovers ..⟩
  have image : x.sst.image = s.sst.image := by rw [sst]
  have rsc : x.rsc = { s.rsc with auto := false } := congrArg (fun d : Rsc => { d with auto := false }) (notify_rsc ..)
  have work := abandonWork_abandons (s := x) (by rw [sst]; exact Mode.noConfusion)
  have toEnd : Walk [.ctx] (abandonWork x) (enterSafe cause s) :=
    (Walk.clearForcedZero (by decide) _).trans (Walk.beginFault (by decide) _)
  obtain ⟨gsd, fdc, bss, chains, ctx, tick, out⟩ := same
  refine ⟨⟨?_, ?_, fun n => ?_, ?_, ?_, ?_, ?_⟩, ?_⟩
  · exact unitsReleased_congr gsd.symm fdc.symm image.symm (toEnd.gsd_eq (by decide))
      (toEnd.fdc_eq (by decide)) work.units
  · rw [toEnd.bss_eq (by decide), work.bss, State.stoppedBss, bss, State.stoppedBss]
  · have row : (enterSafe cause s).chain n = (abandonWork x).chain n :=
      congrArg (Tab.get · n) (toEnd.chains_eq (by decide))
    rw [row, work.chains n]
    exact congrArg (fun t : Tab 6 Chain => abandoned (t.get n)) chains
  · rw [toEnd.handovers_eq (by decide), work.handovers, out]
  · rw [toEnd.rsc_eq (by decide), work.rsc]
    unfold State.idledRsc
    rw [rsc]
  · rw [toEnd.sst_eq (by decide) (by decide), work.walk.sst_eq (by decide) (by decide), sst]
  · have before : (clearForcedZero (abandonWork x)).ctx = { s.ctx with silent := none, forcedZero := false } := by
      rw [clearForcedZero_ctx, work.ctx, ctx]
    have toFault : Walk abandonParts x (clearForcedZero (abandonWork x)) :=
      work.walk.trans (Walk.clearForcedZero (by decide) _)
    rw [whole, beginFault_ctx (by rw [before]) (by rw [before])]
    refine faultCtx_congr ((toFault.image_eq (by decide)).trans image)
      ((toFault.tick_eq (by decide)).trans tick) ?_
    rw [before]
  · exact (toX.mono (by decide)).trans ((work.walk.mono (by decide)).trans (toEnd.mono (by decide)))

/-! ### The MODE notice (R169) -/

theorem changeMode_notices (m : Mode) (cause : ModeCause) {s : State} (room : s.hlc.notices.length < 32) :
    (changeMode m cause s).hlc.notices = s.hlc.notices ++ [⟨.mode, s.tick, 0,
      [sField m.code, sField s.sst.mode.code, sField cause.code, setField s.activeLevels]⟩] :=
  (notify_notices ..).trans (if_pos room)

/-- The MODE notice is the first that a mode change queues. -/
theorem modeNotice {S : List Part} {m : Mode} {cause : ModeCause} {s u : State} (w : Walk S (changeMode m cause s) u)
    (link : .link ∉ S) (room : s.hlc.notices.length < 32) : u.hlc.notices[s.hlc.notices.length]? =
      some ⟨.mode, s.tick, 0, [sField m.code, sField s.sst.mode.code, sField cause.code, setField s.activeLevels]⟩ := by
  obtain ⟨later, eq⟩ := w.notices_prefix link
  rw [← eq, changeMode_notices m cause room, List.append_assoc]
  simp

/-! ### The requests that leave RUN (R167, R168) -/

section
variable {s : State} {tag : Byte}

theorem exec_disengage (ht : s.takes 0x06 tag []) (run : s.sst.mode = .run) :
    exec (.disengage tag []) s = .next (cascade (disengageRun (s.taken.replied 0x86 tag [0]))) :=
  request_cascade disengageAct ht rfl (if_pos run)

theorem exec_safe (ht : s.takes 0x08 tag []) (other : s.sst.mode ≠ .safe) :
    exec (.safe tag []) s = .next (cascade (enterSafe .safeRequest (s.taken.replied 0x88 tag [0]))) :=
  request_cascade safeAct ht rfl (if_neg other)

end

theorem emptyPending_ctx (s : State) : (emptyPending s).ctx = { s.ctx with waiting := Tab.const 8 none } := rfl

theorem disengageRun_leaves (s : State) : let u := disengageRun s
    (unitsReleased s u ∧ u.bss = s.stoppedBss ∧ (∀ n, u.chain n = abandoned (s.chain n)) ∧
      u.sst = { s.sst with mode := .check } ∧ u.handovers = s.handovers) ∧
    u.rsc = s.idledRsc ∧
    u.ctx = { s.ctx with silent := none, forcedZero := false, waiting := Tab.const 8 none } ∧
    Walk abandonParts (changeMode .check .disengage s) u := by
  intro u
  let x : State := changeMode .check .disengage s
  have whole : u = emptyPending (clearForcedZero (abandonWork x)) := rfl
  have sst : x.sst = { s.sst with mode := .check } := notify_sst ..
  have image : x.sst.image = s.sst.image := by rw [sst]
  have work := abandonWork_abandons (s := x) (by rw [sst]; exact Mode.noConfusion)
  have toEnd : Walk [.ctx] (abandonWork x) u := (Walk.clearForcedZero (by decide) _).trans (Walk.ctx (by decide) _ _)
  have gsd : x.gsd = s.gsd := notify_gsd ..
  have fdc : x.fdc = s.fdc := notify_fdc ..
  have rsc : x.rsc = s.rsc := notify_rsc ..
  have ctx : x.ctx = s.ctx := notify_ctx ..
  have out : x.handovers = s.handovers := notify_handovers ..
  have bss : x.bss = s.bss := notify_bss ..
  have chains : x.chains = s.chains := notify_chains ..
  refine ⟨⟨?_, ?_, fun n => ?_, ?_, ?_⟩, ?_, ?_, work.walk.trans (toEnd.mono (by decide))⟩
  · exact unitsReleased_congr gsd.symm fdc.symm image.symm (toEnd.gsd_eq (by decide))
      (toEnd.fdc_eq (by decide)) work.units
  · rw [toEnd.bss_eq (by decide), work.bss, State.stoppedBss, bss, State.stoppedBss]
  · have row : u.chain n = (abandonWork x).chain n := congrArg (Tab.get · n) (toEnd.chains_eq (by decide))
    rw [row, work.chains n]
    exact congrArg (fun t : Tab 6 Chain => abandoned (t.get n)) chains
  · rw [toEnd.sst_eq (by decide) (by decide), work.walk.sst_eq (by decide) (by decide), sst]
  · rw [toEnd.handovers_eq (by decide), work.handovers, out]
  · rw [toEnd.rsc_eq (by decide), work.rsc]
    exact idledRsc_congr rsc
  · have before : (clearForcedZero (abandonWork x)).ctx = { s.ctx with silent := none, forcedZero := false } := by
      rw [clearForcedZero_ctx, work.ctx, ctx]
    rw [whole, emptyPending_ctx, before]

/-- Settles O32: the refusals; the block by block account of DISENGAGE and of the SAFE request. -/
theorem leavingRunAbandonsWork : Obligations.LeavingRunAbandonsWork := by
  refine fun s tag => ⟨fun ht other => ?_, fun ht safe => ?_, fun ht run => ?_, fun ht other => ?_⟩
  · exact request_answered disengageAct (st := .mode) ht rfl (fun reply => if_neg other) rfl
  · exact request_answered safeAct (st := .ok) ht rfl (fun reply => if_pos safe) rfl
  · let x := s.taken.replied 0x86 tag [0]
    obtain ⟨⟨units, bss, chains, sst, out⟩, rsc, ctx, walk⟩ := disengageRun_leaves x
    have calm : (disengageRun x).handovers = [] := out.trans ht.1.2
    have whole : Walk (.store :: abandonParts) x (disengageRun x) :=
      (Walk.changeMode (by decide) _ _ x).trans (walk.mono (by decide))
    refine ⟨disengageRun x, (exec_disengage ht run).trans (congrArg Host.Outcome.next (cascade_of_idle calm)), units,
      programStopped_of_bss bss, chains, sst, whole.srx_eq (by decide), whole.ben_eq (by decide), whole.tick_eq (by decide),
      whole.pending_eq, whole.reply_eq (by decide), whole.slots_eq (by decide), fun room => ?_, fun l => ?_, fun c => ?_,
      by rw [rsc]; rfl, by rw [rsc]; rfl, by rw [rsc]; rfl, by rw [ctx], by rw [ctx], by rw [ctx]; rfl, by rw [ctx]; rfl,
      by rw [ctx]; rfl, by rw [ctx]; rfl, by rw [ctx]; rfl, fun p => ?_⟩
    · have mode : x.sst.mode = .run := run
      exact (modeNotice walk (by decide) room).trans (by rw [mode]; rfl)
    · rw [rsc]; exact Tab.get_const ..
    · unfold State.condRow; rw [rsc]; exact Tab.get_mapIdx ..
    · rw [ctx]; exact Tab.get_const ..
  · have runs := exec_safe ht other
    obtain ⟨entered, walk⟩ := enterSafe_enters .safeRequest (s.taken.replied 0x88 tag [0])
    generalize enterSafe .safeRequest (s.taken.replied 0x88 tag [0]) = u at runs entered walk
    have calm : u.handovers = [] := entered.handovers.trans ht.1.2
    have whole : Walk (.store :: abandonParts) (s.taken.replied 0x88 tag [0]) u :=
      (Walk.changeMode (by decide) _ _ _).trans walk
    have ctx : u.ctx = s.faultCtx := entered.ctx.trans rfl
    have units : unitsReleased s u := unitsReleased_congr rfl rfl rfl rfl rfl entered.units
    refine ⟨u, runs.trans (congrArg Host.Outcome.next (cascade_of_idle calm)), units,
      programStopped_of_bss entered.bss, entered.chains, entered.sst, whole.srx_eq (by decide), whole.ben_eq (by decide),
      whole.tick_eq (by decide), whole.pending_eq, whole.reply_eq (by decide), whole.slots_eq (by decide), fun room => ?_,
      fun l => ?_, fun c => ?_, by rw [entered.rsc], by rw [entered.rsc]; rfl, by rw [entered.rsc]; rfl, by rw [ctx]; rfl,
      by rw [ctx]; rfl, by rw [ctx]; rfl, by rw [ctx]; rfl, by rw [ctx]; rfl, by rw [ctx]; rfl, by rw [ctx]; rfl,
      fun p => ?_⟩
    · exact (modeNotice walk (by decide) room).trans rfl
    · rw [entered.rsc]; exact Tab.get_const ..
    · unfold State.condRow; rw [entered.rsc]; exact Tab.get_mapIdx ..
    · rw [ctx]; exact Tab.get_ofFn ..

end Sys2Proof.Machine

/-!
SUPPORT. RESTART and the scan (R164, R176, R177).
-/
namespace Sys2Proof.Machine

/-! ### RESTART (R164) -/

theorem restartEntered_regs (s : State) : let a := restartEntered s
    a.gsd = s.gsd ∧ a.fdc = s.fdc ∧ a.chains = s.chains ∧ a.ben = s.ben ∧ a.ctx = s.ctx ∧ a.tick = s.tick ∧
    a.handovers = s.handovers ∧ a.srx = Srx.initial ∧ a.rsc = Rsc.initial ∧
    a.sst = ⟨.setup, s.sst.image, none, false, none⟩ := by
  refine ⟨notify_gsd .., notify_fdc .., notify_chains .., notify_ben .., notify_ctx .., notify_tick ..,
    notify_handovers .., rfl, rfl, ?_⟩
  have entered : (changeMode .setup .restart s).sst = { s.sst with mode := .setup } := notify_sst ..
  exact congrArg (fun d : Sst => { d with committed := none, scan := none, settingsFault := false }) entered

theorem ctxRestart_ctx (s : State) :
    (ctxRestart s).ctx = { Ctx.initial with plants := s.ctx.plants, line := s.ctx.line } := by
  have kept : (clearForcedZero (endSilent s)).ctx = { s.ctx with silent := none, forcedZero := false } := by
    rw [clearForcedZero_ctx, endSilent_ctx]
  have built : (ctxRestart s).ctx = { Ctx.initial with
    plants := (clearForcedZero (endSilent s)).ctx.plants, line := (clearForcedZero (endSilent s)).ctx.line } := rfl
  rw [built, kept]

theorem bssRestart_ctx (s : State) : (bssRestart s).ctx = (abortProgram s).ctx := rfl

/-- What RESTART leaves. -/
theorem restartPart_leaves (s : State) : let u := restartPart s
    (unitsReleased s u ∧ u.srx = Srx.initial ∧ u.ben = { Ben.initial with starts := s.ben.starts } ∧
      u.ctx = { Ctx.initial with plants := s.ctx.plants, line := s.ctx.line } ∧ u.rsc = Rsc.initial ∧ u.bss = Bss.initial) ∧
    (∀ n, chainRestarted (s.chain n) (u.chain n)) ∧
    u.sst = ⟨.setup, s.sst.image, none, false, none⟩ ∧ u.handovers = s.handovers ∧
    Walk (.store :: .srx :: .ben :: abandonParts) (changeMode .setup .restart s) u := by
  intro u
  let a := benRestart (restartEntered s)
  let b := chuRestart a
  let c := gsdAbandon b
  let d := fdcAbandon c
  let e := bssRestart d
  obtain ⟨gsd, fdc, chains, ben, ctx, tick, out, srx, rsc, sst⟩ := restartEntered_regs s
  have toA : Walk [.store, .srx, .rsc, .ben] (changeMode .setup .restart s) a := by
    have entered : restartEntered s = { changeMode .setup .restart s with
      sst.committed := none, sst.scan := none, sst.settingsFault := false, srx := Srx.initial, rsc := Rsc.initial } := rfl
    have toBen : Walk [.ben] (restartEntered s) a := Walk.ben (by decide) _ _
    refine Walk.trans ?_ (toBen.mono (by decide))
    rw [entered]
    generalize changeMode .setup .restart s = m
    exact ((Walk.store (by decide) m { m.sst with committed := none, scan := none, settingsFault := false } rfl).trans
      (Walk.srx (by decide) _ Srx.initial)).trans (Walk.rsc (by decide) _ Rsc.initial)
  have toB : Walk [.chains] a b := Walk.chuRestart (by decide) a
  have toC : Walk [.gsd, .handovers] b c := Walk.gsdAbandon (by decide) (by decide) b
  have toD : Walk [.fdc] c d := Walk.fdcAbandon (by decide) c
  have toE : Walk [.bss, .ctx] d e := Walk.bssRestart (by decide) (by decide) d
  have toU : Walk [.ctx] e u := Walk.ctxRestart (by decide) e
  have sstB : b.sst = ⟨.setup, s.sst.image, none, false, none⟩ := (toB.sst_eq (by decide) (by decide)).trans sst
  have offB : b.sst.mode ≠ .run := by rw [sstB]; exact Mode.noConfusion
  have imageB : b.sst.image = s.sst.image := by rw [sstB]
  have fromD : Walk [.bss, .ctx] d u := toE.trans (toU.mono (by decide))
  have fromC : Walk [.fdc, .bss, .ctx] c u := (toD.mono (by decide)).trans (fromD.mono (by decide))
  have fromB : Walk [.gsd, .handovers, .fdc, .bss, .ctx] b u := (toC.mono (by decide)).trans (fromC.mono (by decide))
  have fromA : Walk [.chains, .gsd, .handovers, .fdc, .bss, .ctx] a u := (toB.mono (by decide)).trans (fromB.mono (by decide))
  have toD' : Walk [.chains, .gsd, .handovers, .fdc] a d :=
    ((toB.mono (by decide)).trans (toC.mono (by decide))).trans (toD.mono (by decide))
  refine ⟨⟨?_, ?_, ?_, ?_, ?_, ?_⟩, fun n => ?_, ?_, ?_, ?_⟩
  · refine unitsReleased_of_abandon offB ((toB.gsd_eq (by decide)).trans gsd) imageB (fromC.gsd_eq (by decide))
      (((toC.fdc_eq (by decide)).trans (toB.fdc_eq (by decide))).trans fdc) ?_ (fromD.fdc_eq (by decide))
    exact (toC.image_eq (by decide)).trans imageB
  · exact (fromA.srx_eq (by decide)).trans srx
  · exact (fromA.ben_eq (by decide)).trans (congrArg (fun x : Ben => { Ben.initial with starts := x.starts }) ben)
  · have ctxE : e.ctx = { s.ctx with forcedZero := if d.bss.program = .idle then s.ctx.forcedZero else false } := by
      rw [bssRestart_ctx, abortProgram_ctx, (toD'.ctx_eq (by decide)).trans ctx]
    have whole : u = ctxRestart e := rfl
    rw [whole, ctxRestart_ctx, ctxE]
  · exact (fromA.rsc_eq (by decide)).trans rsc
  · exact (toU.bss_eq (by decide)).trans rfl
  · have row : u.chain n = b.chain n := congrArg (Tab.get · n) (fromB.chains_eq (by decide))
    have before : a.chain n = s.chain n := congrArg (Tab.get · n) chains
    rw [row, ← before]
    exact chuRestart_row a n
  · exact (fromB.sst_eq (by decide) (by decide)).trans sstB
  · rw [fromC.handovers_eq (by decide), gsdAbandon_handovers offB, toB.handovers_eq (by decide)]
    exact out
  · exact (toA.mono (by decide)).trans (fromA.mono (by decide))

/-- Settles O33: RESTART, block by block. -/
theorem restartResetsTheBlocks : Obligations.RestartResetsTheBlocks := by
  intro s tag ht
  have runs : exec (.restart tag []) s = .next (cascade (restartPart (s.taken.replied 0x87 tag [0]))) :=
    request_cascade restartAct ht rfl rfl
  obtain ⟨⟨units, srx, ben, ctx, rsc, bss⟩, chains, sst, out, walk⟩ := restartPart_leaves (s.taken.replied 0x87 tag [0])
  generalize restartPart (s.taken.replied 0x87 tag [0]) = u at runs units srx ben ctx rsc bss chains sst out walk
  have whole : Walk (.store :: .srx :: .ben :: abandonParts) (s.taken.replied 0x87 tag [0]) u :=
    (Walk.changeMode (by decide) _ _ _).trans walk
  have calm : u.handovers = [] := out.trans ht.1.2
  have units : unitsReleased s u := unitsReleased_congr rfl rfl rfl rfl rfl units
  refine ⟨u, runs.trans (congrArg Host.Outcome.next (cascade_of_idle calm)), units, srx, ben, by rw [ctx]; rfl,
    fun p => ?_, by rw [ctx]; rfl, by rw [ctx]; rfl, by rw [ctx]; rfl, by rw [ctx]; rfl, by rw [ctx]; rfl, by rw [ctx]; rfl,
    rsc, bss, chains, sst, whole.tick_eq (by decide), whole.pending_eq, whole.reply_eq (by decide),
    whole.slots_eq (by decide), whole.sequence_eq (by decide), whole.partialFrame_eq (by decide), fun room => ?_⟩
  · rw [ctx]; exact Tab.get_const ..
  · exact (modeNotice walk (by decide) room).trans rfl

/-! ### The scan (R176, R177) -/

theorem readScanItem_idle {s : State} (idle : s.sst.scan = none) : readScanItem s = s := by
  unfold readScanItem; rw [idle]

theorem completeScan_idle {s : State} (idle : s.sst.scan = none) : completeScan s = s := by
  unfold completeScan; rw [idle]

section
variable {s : State} {c : Scan} (runs : s.sst.scan = some c)
include runs

theorem readScanItem_reads {k : ItemName} (item : checkOrder[c.position]? = some k) :
    readScanItem s = { advanceTo (c.start + BitVec.ofNat 32 (c.position * 1000 / 369)) s with
      sst.scan := some ⟨c.start, c.position + 1, crc32Run c.crc (itemBytes k (s.sst.image.get k))⟩ } := by
  have due : c.itemDue c.position = c.start + BitVec.ofNat 32 (c.position * 1000 / 369) := by
    unfold Scan.itemDue
    rw [checkOrder_length]; rfl
  obtain ⟨tick, ben, gsd, shape⟩ := advanceTo_shape (c.start + BitVec.ofNat 32 (c.position * 1000 / 369)) s
  unfold readScanItem
  rw [runs]
  dsimp only
  rw [item]
  dsimp only
  rw [due, shape]
  simp only [Scan.readItems, List.length_singleton, List.foldl_cons, List.foldl_nil]

theorem readScanItem_past (past : 369 ≤ c.position) : readScanItem s = s := by
  unfold readScanItem
  rw [runs]
  dsimp only
  rw [List.getElem?_eq_none (by rw [checkOrder_length]; exact past)]

theorem completeScan_compares : completeScan s =
    if s.sst.committed = some (crc32Final ((checkOrder.drop c.position).foldl
      (fun reg k => crc32Run reg (itemBytes k (s.sst.image.get k))) c.crc))
    then startScan (advanceTo (c.start + 1000) s) else scanMismatch (advanceTo (c.start + 1000) s) := by
  obtain ⟨tick, ben, gsd, shape⟩ := advanceTo_shape (c.start + 1000) s
  unfold completeScan
  rw [runs]
  dsimp only
  have due : c.due = c.start + 1000 := rfl
  rw [due, shape]
  rfl

end

theorem setFaultLatch_faultLatch (l : Latch) (s : State) : (setFaultLatch l s).rsc = { s.rsc with faultLatch := l } := by
  unfold setFaultLatch
  split
  · next same => rw [← same]
  · exact notify_rsc ..

/-- What a mismatch leaves (R177). -/
theorem scanMismatch_leaves (s : State) : let u := scanMismatch s
    (u.sst = { s.sst with mode := .safe, settingsFault := true, scan := none } ∧ unitsReleased s u ∧
      u.bss = s.stoppedBss ∧ u.handovers = s.handovers) ∧
    u.rsc = { s.idledRsc with auto := false, faultLatch := s.rsc.faultLatch.onTrue } ∧ u.ctx = s.faultCtx ∧
    Walk (.store :: abandonParts) (changeMode .safe .scanMismatch { s with sst.settingsFault := true }) u := by
  obtain ⟨entered, walk⟩ := enterSafe_enters .scanMismatch { s with sst.settingsFault := true }
  unfold scanMismatch
  generalize enterSafe .scanMismatch { s with sst.settingsFault := true } = x at entered walk
  dsimp only
  have latch : x.rsc.faultLatch = s.rsc.faultLatch := by rw [entered.rsc]; rfl
  have toEnd : Walk [.rsc] x (setFaultLatch x.rsc.faultLatch.onTrue x) := Walk.setFaultLatch (by decide) _ x
  refine ⟨⟨?_, ?_, ?_, ?_⟩, ?_, ?_, walk.trans (toEnd.mono (by decide))⟩
  · rw [toEnd.sst_eq (by decide) (by decide), entered.sst]
  · exact unitsReleased_congr rfl rfl rfl (toEnd.gsd_eq (by decide)) (toEnd.fdc_eq (by decide)) entered.units
  · exact (toEnd.bss_eq (by decide)).trans entered.bss
  · exact (toEnd.handovers_eq (by decide)).trans entered.handovers
  · rw [setFaultLatch_faultLatch, latch, entered.rsc]; rfl
  · exact (toEnd.ctx_eq (by decide)).trans entered.ctx

/-- Settles O34: the reads at their times, the comparison, and what a mismatch leaves. -/
theorem scanRepeatsUntilMismatch : Obligations.ScanRepeatsUntilMismatch := by
  refine fun s calm => ⟨fun idle => ⟨?_, ?_⟩, fun c runs => ⟨fun k item => ?_, fun past => ?_, ?_⟩⟩
  · exact congrArg Host.Outcome.next ((takeEvent_calm calm (by rw [readScanItem_idle idle])).trans (readScanItem_idle idle))
  · exact congrArg Host.Outcome.next ((takeEvent_calm calm (by rw [completeScan_idle idle])).trans (completeScan_idle idle))
  · have reads := readScanItem_reads runs item
    refine congrArg Host.Outcome.next ((takeEvent_calm calm ?_).trans reads)
    rw [reads]
    exact advanceTo_handovers _ s
  · have stays := readScanItem_past runs past
    exact congrArg Host.Outcome.next ((takeEvent_calm calm (by rw [stays])).trans stays)
  · intro a crc
    have compares := completeScan_compares runs
    obtain ⟨tick, ben, gsd, shape⟩ := advanceTo_shape (c.start + 1000) s
    have a_eq : a = { s with tick := tick, ben := ben, gsd := gsd } := shape
    refine ⟨fun equal => ?_, fun differs => ?_⟩
    · have starts : completeScan s = startScan a := compares.trans (if_pos equal)
      refine congrArg Host.Outcome.next ((takeEvent_calm calm ?_).trans starts)
      rw [starts, a_eq]; rfl
    · have fails : completeScan s = scanMismatch a := compares.trans (if_neg differs)
      obtain ⟨⟨sst, units, bss, out⟩, rsc, ctx, walk⟩ := scanMismatch_leaves a
      have idle : (completeScan s).handovers = s.handovers := by rw [fails, out, a_eq]
      refine ⟨scanMismatch a, congrArg Host.Outcome.next ((takeEvent_calm calm idle).trans fails), ?_⟩
      generalize scanMismatch a = u at sst units bss out rsc ctx walk
      clear_value a
      have bss' : u.bss = s.stoppedBss := by rw [bss, a_eq]; rfl
      have sst' : u.sst = { s.sst with mode := .safe, settingsFault := true, scan := none } := by rw [sst, a_eq]
      have latch : s.rsc.faultLatch.onTrue = (match s.rsc.faultLatch with
          | .idle => .active | .clearedUnacked => .active | l => l) := by cases s.rsc.faultLatch <;> rfl
      have before : a.rsc.faultLatch = s.rsc.faultLatch := by rw [a_eq]
      refine ⟨sst', units, programStopped_of_bss bss', by rw [rsc], fun l => ?_, ?_, fun room => ?_, ?_, fun p => ?_⟩
      · rw [rsc]; exact Tab.get_const ..
      · refine Eq.trans ?_ latch
        rw [rsc, ← before]
      · have hlc : a.hlc = s.hlc := by rw [a_eq]
        have noticed := modeNotice walk (by decide) ((congrArg (fun x : Hlc => x.notices.length < 32) hlc).mpr room)
        rw [a_eq] at noticed ⊢
        exact noticed
      · rw [ctx, a_eq]; rfl
      · rw [ctx, a_eq]; exact Tab.get_ofFn ..

end Sys2Proof.Machine

/-!
SUPPORT. ENGAGE: CTX, the sets, the feeders, and what the blocks leave as it is (R19, R53, R120, R143, R166).
-/
namespace Sys2Proof.Machine

/-! ### CTX (R53) -/

theorem ctxEngage_ctx (s : State) : (ctxEngage s).ctx = { s.ctx with
    capPct := 100
    refreshCount := s.sysNat Sys.refreshPasses - 1
    silent := if s.srx.busSilent = true ∧ s.beginsSilent then
      some ⟨fallbackOf (s.sys Sys.silentFallback), s.tick + 20⟩ else s.ctx.silent
    waiting := if s.srx.busSilent = true ∧ s.beginsSilent then
      Tab.ofFn (s.fallbackPick (fallbackOf (s.sys Sys.silentFallback))) else Tab.const 8 none } := by
  let t : State := { s with
    ctx.waiting := Tab.const 8 none, ctx.capPct := 100, ctx.refreshCount := s.sysNat Sys.refreshPasses - 1 }
  have stages : ctxEngage s = beginSilent t := rfl
  rw [stages]
  by_cases silent : s.srx.busSilent = true
  · rw [beginSilent_eq (s := t) silent, notifyAll_eq]
    have picks : (Tab.ofFn fun p => (t.fallbackPick (fallbackOf (t.sys Sys.silentFallback)) p).or (t.ctx.waiting.get p)) =
        Tab.ofFn (s.fallbackPick (fallbackOf (s.sys Sys.silentFallback))) := Tab.ext_get fun p => by
      rw [Tab.get_ofFn, Tab.get_ofFn, Tab.get_const, Option.or_none]; rfl
    dsimp only
    rw [picks]
    have begins : (s.srx.busSilent = true ∧ s.beginsSilent) = s.beginsSilent := propext (and_iff_right silent)
    simp only [begins]
    rfl
  · have stays : beginSilent t = t := if_neg (by simp [t, silent])
    have idle : ¬(s.srx.busSilent = true ∧ s.beginsSilent) := fun h => silent h.1
    rw [stays, if_neg idle, if_neg idle]

/-! ### The units (R120, R143) -/

section
variable {s : State}

theorem gsdEngage_eq (s : State) : gsdEngage s = gsdEvent (forAll 6 remapSet) s := rfl

theorem fdcEngage_eq (s : State) : fdcEngage s = fdcEvent (forAll 16 mapFeeder) s := rfl

theorem gsdEngage_row (alone : s.unwatched) (free : ∀ g, (s.setRec g).unowned) (g : Fin 6) : ∃ rev,
    (gsdEngage s).setRec g = { s.remapped g (s.setRec g) with revision := rev } := by
  obtain ⟨rev, row⟩ := gsdEvent_row_but_revision (forAll 6 remapSet) s g
  exact ⟨rev, by rw [gsdEngage_eq, row, remapAll_row alone free]⟩

theorem gsdEngage_handovers (alone : s.unwatched) (free : ∀ g, (s.setRec g).unowned) :
    (gsdEngage s).handovers = s.handovers := by
  rw [gsdEngage_eq, gsdEvent_handovers, remapAll_handovers alone free]

theorem fdcEngage_row (s : State) (f : Fin 16) : ∃ rev,
    (fdcEngage s).feederRec f = { s.remappedFeeder f (s.feederRec f) with revision := rev } := by
  obtain ⟨rev, row⟩ := fdcEvent_row_but_revision (forAll 16 mapFeeder) s f
  exact ⟨rev, by rw [fdcEngage_eq, row, mapAll_row]⟩

theorem fdcEngage_handovers (s : State) : (fdcEngage s).handovers = s.handovers := by
  rw [fdcEngage_eq, ← besideFeeders_handovers, fdcEvent_besideFeeders, mapAll_besideFeeders]; rfl

/-- No set waits and no permit is in use where the mapping has put every set. -/
theorem crank_idle (ok : s.gsd.CrankOk) (mapped : ∀ g, (s.setRec g).state ≠ .queued ∧ (s.setRec g).state ≠ .cranking) :
    s.gsd.queue = [] ∧ s.gsd.permits = 0 := by
  obtain ⟨-, waits, permits⟩ := ok
  refine ⟨List.eq_nil_iff_forall_not_mem.2 fun g mem => (mapped g).1 ((waits g).1 mem), permits.trans ?_⟩
  exact List.countP_eq_zero.2 fun g _ cranks => (mapped g).2 (of_decide_eq_true cranks)

theorem restore_idle (ok : s.fdc.RestoreOk) (mapped : ∀ f, (s.feederRec f).state ≠ .openShed) : s.fdc.queue = [] :=
  List.eq_nil_iff_forall_not_mem.2 fun f mem => mapped f (ok.2 f mem)

theorem mappedSet_settled (s : State) (g : Fin 6) : s.mappedSet g ≠ .queued ∧ s.mappedSet g ≠ .cranking := by
  rcases mappedSet_cases g s with h | h | h | h <;> rw [h] <;> decide

/-- The row of a set that is mapped in RUN. -/
theorem remapped_run (run : s.sst.mode = .run) (g : Fin 6) :
    let r := s.remapped g (s.setRec g)
    r.state = s.mappedSet g ∧ r.attempts = 0 ∧ r.retry = false ∧
    r.timer = (if s.mappedSet g = .runUp then some (s.dueIn (s.sysNat Sys.syncTime)) else none) ∧
    r.onlineSince = (if s.mappedSet g = .online then some s.tick else none) ∧
    r.minRunMet = (decide (s.mappedSet g = .online) && decide (s.sysNat Sys.minRun = 0)) ∧
    r.minRunTimer = (if s.mappedSet g = .online ∧ s.sysNat Sys.minRun ≠ 0 then
      some (s.dueIn (s.sysNat Sys.minRun * 1000)) else none) ∧ r.onlineMs = 0 := by
  have timer : s.setTimerFor (s.mappedSet g) =
      if s.mappedSet g = .runUp then some (s.dueIn (s.sysNat Sys.syncTime)) else none := by
    rw [setTimerFor_eq, if_neg (Classical.not_not.2 run)]
    rcases mappedSet_cases g s with h | h | h | h <;> rw [h] <;> rfl
  unfold State.remapped
  rw [← mappedSet_eq, enterSet_eq]
  exact ⟨rfl, ite_self _, rfl, timer, rfl, rfl, rfl, rfl⟩

end

/-! ### ENGAGE (R166) -/

theorem exec_engage {s : State} {tag : Byte} (ht : s.takes 0x05 tag []) (check : s.sst.mode = .check) :
    exec (.engage tag []) s = .next (cascade (engageRun (s.taken.replied 0x85 tag [0]))) :=
  request_cascade engageAct ht rfl (if_pos check)

/-- The blocks at ENGAGE, one after another. -/
theorem engageRun_eq (s : State) : engageRun s =
    emit .examine (fdcEngage (gsdEngage (ctxEngage (benEngage (changeMode .run .engage s))))) := rfl

/-- CTX and BEN at ENGAGE, before the units are mapped. -/
def engageCtx (s : State) : State := ctxEngage (benEngage (changeMode .run .engage s))

theorem engageCtx_walk (s : State) : Walk [.ben, .ctx] (changeMode .run .engage s) (engageCtx s) :=
  (Walk.ben (by decide) _ _).trans (Walk.ctxEngage (by decide) _)

theorem changeMode_same (m : Mode) (cause : ModeCause) (s : State) : let t := changeMode m cause s
    t.sst = { s.sst with mode := m } ∧ t.gsd = s.gsd ∧ t.fdc = s.fdc ∧ t.bss = s.bss ∧ t.tick = s.tick ∧ t.srx = s.srx ∧
    t.ben = s.ben ∧ t.ctx = s.ctx ∧ t.handovers = s.handovers :=
  ⟨notify_sst .., notify_gsd .., notify_fdc .., notify_bss .., notify_tick .., notify_srx .., notify_ben .., notify_ctx ..,
    notify_handovers ..⟩

/-- What the units are at ENGAGE. -/
structure UnitsEngaged (s u : State) : Prop where
  queue : u.gsd.queue = []
  permits : u.gsd.permits = 0
  restore : u.fdc.queue = []
  sets : ∀ g, let r := u.setRec g
    r.state = s.mappedSet g ∧ r.attempts = 0 ∧ r.retry = false ∧
    r.timer = (if s.mappedSet g = .runUp then some (s.dueIn (s.sysNat Sys.syncTime)) else none) ∧
    r.onlineSince = (if s.mappedSet g = .online then some s.tick else none) ∧
    r.minRunMet = (decide (s.mappedSet g = .online) && decide (s.sysNat Sys.minRun = 0)) ∧
    r.minRunTimer = (if s.mappedSet g = .online ∧ s.sysNat Sys.minRun ≠ 0 then
      some (s.dueIn (s.sysNat Sys.minRun * 1000)) else none) ∧ r.onlineMs = 0
  feeders : ∀ f, (u.feederRec f).state = s.mappedFeeder f
  handovers : u.handovers = s.handovers

theorem unitsEngage {s : State} (run : s.sst.mode = .run) (crank : s.gsd.CrankOk) (restore : s.fdc.RestoreOk)
    (free : ∀ g, (s.setRec g).unowned) (idle : s.bss.program = .idle) :
    UnitsEngaged s (fdcEngage (gsdEngage s)) := by
  have toSets : Walk [.gsd, .handovers] s (gsdEngage s) := Walk.gsdEngage (by decide) (by decide) s
  have toFeeders : Walk [.fdc] (gsdEngage s) (fdcEngage (gsdEngage s)) := Walk.fdcEngage (by decide) _
  have gsd : (fdcEngage (gsdEngage s)).gsd = (gsdEngage s).gsd := toFeeders.gsd_eq (by decide)
  have fdc : (gsdEngage s).fdc = s.fdc := toSets.fdc_eq (by decide)
  have sets : ∀ g, ∃ rev, (gsdEngage s).setRec g = { s.remapped g (s.setRec g) with revision := rev } :=
    gsdEngage_row (.inr idle) free
  have feeders : ∀ f, ((fdcEngage (gsdEngage s)).feederRec f).state = s.mappedFeeder f := fun f => by
    obtain ⟨rev, row⟩ := fdcEngage_row (gsdEngage s) f
    have before : (gsdEngage s).feederRec f = s.feederRec f := congrArg (fun d => d.feeders.get f) fdc
    have same : (gsdEngage s).mappedFeederOf = s.mappedFeederOf := mappedFeederOf_congr (toSets.image_eq (by decide))
    rw [row, before, mappedFeeder_eq, ← same]
    dsimp only [State.remappedFeeder]
  have settled : ∀ g, ((gsdEngage s).setRec g).state ≠ .queued ∧ ((gsdEngage s).setRec g).state ≠ .cranking := fun g => by
    obtain ⟨rev, row⟩ := sets g
    have state : ((gsdEngage s).setRec g).state = s.mappedSet g := by
      rw [row]; exact (remapped_keeps s g (s.setRec g)).1
    rw [state]
    exact mappedSet_settled s g
  obtain ⟨queue, permits⟩ := crank_idle ((Quiet.gsdEngage s).crank crank) settled
  refine ⟨by rw [gsd, queue], by rw [gsd, permits], ?_, fun g => ?_, feeders, ?_⟩
  · refine restore_idle ((Quiet.fdcEngage _).restore (by rw [fdc]; exact restore)) fun f => ?_
    rw [feeders]; exact mappedFeeder_ne_openShed s f
  · intro r
    have here : r = (gsdEngage s).setRec g := congrArg (fun d => d.sets.get g) gsd
    obtain ⟨rev, row⟩ := sets g
    rw [here, row]
    exact remapped_run run g
  · rw [fdcEngage_handovers, gsdEngage_handovers (.inr idle) free]

theorem sumCapacity_congr {s t : State} (image : t.sst.image = s.sst.image) (ctx : t.ctx = s.ctx) :
    t.sumCapacity = s.sumCapacity := by
  unfold State.sumCapacity State.sumPlants State.plantServes State.plantInstalled State.plantCapacity State.plantRow
    State.setting
  rw [image, ctx]

theorem engageCtx_ben (s : State) :
    (engageCtx s).ben = { s.ben with ring := [], aPrev := s.sumCapacity, stableMs := 0 } := by
  obtain ⟨sst, -, -, -, -, -, ben, ctx, -⟩ := changeMode_same .run .engage s
  have capacity : (changeMode .run .engage s).sumCapacity = s.sumCapacity := sumCapacity_congr (by rw [sst]) ctx
  refine ((Walk.ctxEngage (S := [.ctx]) (by decide) _).ben_eq (by decide)).trans ?_
  unfold benEngage
  rw [capacity, ben]

theorem fallbackPick_congr {s t : State} (image : t.sst.image = s.sst.image) (ctx : t.ctx = s.ctx) :
    t.fallbackPick = s.fallbackPick := by
  funext choice p
  rw [fallbackPick_eq, fallbackPick_eq, fallbackCeiling_congr image (congrArg Ctx.plants ctx), ctx]

theorem engageCtx_ctx (s : State) : (engageCtx s).ctx = { s.ctx with
    capPct := 100
    refreshCount := s.sysNat Sys.refreshPasses - 1
    silent := if s.srx.busSilent = true ∧ s.ctx.silent = none then
      some ⟨fallbackOf (s.sys Sys.silentFallback), s.tick + 20⟩ else s.ctx.silent
    waiting := if s.srx.busSilent = true ∧ s.ctx.silent = none then
      Tab.ofFn (s.fallbackPick (fallbackOf (s.sys Sys.silentFallback))) else Tab.const 8 none } := by
  obtain ⟨sst, -, -, -, tick, srx, -, ctx, -⟩ := changeMode_same .run .engage s
  let b := benEngage (changeMode .run .engage s)
  have sstB : b.sst = { s.sst with mode := .run } := sst
  have srxB : b.srx = s.srx := srx
  have ctxB : b.ctx = s.ctx := ctx
  have tickB : b.tick = s.tick := tick
  have whole : engageCtx s = ctxEngage b := rfl
  rw [whole]
  clear_value b
  have image : b.sst.image = s.sst.image := by rw [sstB]
  have begins : b.beginsSilent = (s.ctx.silent = none) := by
    unfold State.beginsSilent; rw [sstB, ctxB]; exact propext (and_iff_right rfl)
  rw [ctxEngage_ctx]
  simp only [begins, srxB, ctxB, tickB, sys_congr image, sysNat_congr image, fallbackPick_congr image ctxB]

/-- Settles O31: the refusal; ENGAGE, block by block. -/
theorem engageStartsRun : Obligations.EngageStartsRun := by
  refine fun s tag ht => ⟨fun other => ?_, fun check crank restore origins program => ?_⟩
  · exact request_answered engageAct (st := .mode) ht rfl (fun reply => if_neg other) rfl
  · have runs := exec_engage ht check
    obtain ⟨c, cEq⟩ : ∃ c, c = engageCtx (s.taken.replied 0x85 tag [0]) := ⟨_, rfl⟩
    obtain ⟨f, fEq⟩ : ∃ f, f = fdcEngage (gsdEngage c) := ⟨_, rfl⟩
    have whole : engageRun (s.taken.replied 0x85 tag [0]) = emit .examine f := by
      rw [engageRun_eq, fEq, cEq]; rfl
    have toC := engageCtx_walk (s.taken.replied 0x85 tag [0])
    have benC := engageCtx_ben (s.taken.replied 0x85 tag [0])
    have ctxC := engageCtx_ctx (s.taken.replied 0x85 tag [0])
    obtain ⟨sst, gsd, fdc, bss, tick, srx, ben, ctx, out⟩ := changeMode_same .run .engage (s.taken.replied 0x85 tag [0])
    rw [← cEq] at toC benC ctxC
    have sstC : c.sst = { s.sst with mode := .run } := (toC.sst_eq (by decide) (by decide)).trans sst
    have imageC : c.sst.image = s.sst.image := by rw [sstC]
    have gsdC : c.gsd = s.gsd := (toC.gsd_eq (by decide)).trans gsd
    have fdcC : c.fdc = s.fdc := (toC.fdc_eq (by decide)).trans fdc
    have bssC : c.bss = s.bss := (toC.bss_eq (by decide)).trans bss
    have tickC : c.tick = s.tick := (toC.tick_eq (by decide)).trans tick
    have setC : ∀ g, c.setRec g = s.setRec g := fun g => congrArg (fun d => d.sets.get g) gsdC
    have units := unitsEngage (s := c) (by rw [sstC]) (by rw [gsdC]; exact crank) (by rw [fdcC]; exact restore)
      (fun g => by rw [setC]; exact origins g) (by rw [bssC]; exact program)
    have toF : Walk [.gsd, .handovers, .fdc] c f := by
      rw [fEq]
      exact (Walk.gsdEngage (by decide) (by decide) c).trans (Walk.fdcEngage (by decide) _)
    rw [← fEq] at units
    have fromMode : Walk [.ben, .ctx, .gsd, .handovers, .fdc] (changeMode .run .engage (s.taken.replied 0x85 tag [0]))
        (emit .examine f) :=
      ((toC.mono (by decide)).trans (toF.mono (by decide))).trans (Walk.emit (by decide) _ _)
    have all : Walk [.store, .ben, .ctx, .gsd, .handovers, .fdc] (s.taken.replied 0x85 tag [0]) (emit .examine f) :=
      (Walk.changeMode (by decide) _ _ _).trans (fromMode.mono (by decide))
    have outF : f.handovers = [] := ((units.handovers.trans (toC.handovers_eq (by decide))).trans out).trans ht.1.2
    have mapped : ∀ g, c.mappedSet g = s.mappedSet g := fun g => by
      rw [mappedSet_eq, mappedOf_congr imageC, setC]; rfl
    have mapped' : ∀ i, c.mappedFeeder i = s.mappedFeeder i := fun i => by
      rw [mappedFeeder_eq, mappedFeederOf_congr imageC, State.feederRec, fdcC]; rfl
    have nat : ∀ k, c.sysNat k = s.sysNat k := sysNat_congr imageC
    have ctxF : f.ctx = c.ctx := toF.ctx_eq (by decide)
    have benF : f.ben = c.ben := toF.ben_eq (by decide)
    refine ⟨emit .examine f, runs.trans (by rw [whole]), by rw [emit, outF]; rfl,
      (toF.sst_eq (by decide) (by decide)).trans sstC, all.srx_eq (by decide), all.rsc_eq (by decide),
      all.chains_eq (by decide), all.bss_eq (by decide), all.tick_eq (by decide), all.pending_eq, all.reply_eq (by decide),
      all.slots_eq (by decide), fun room => ?_, benF.trans benC, ?_, ?_, ?_, ?_, fun loud => ⟨?_, fun p => ?_⟩,
      fun silent idle clear => ⟨?_, fun p => ?_⟩, units.queue, units.permits, units.restore, fun g => ?_, fun i => ?_⟩
    · have mode : (s.taken.replied 0x85 tag [0]).sst.mode = .check := check
      exact (modeNotice fromMode (by decide) room).trans (by rw [mode]; rfl)
    · exact (congrArg Ctx.plants (ctxF.trans ctxC)).trans rfl
    · exact (congrArg Ctx.capPct (ctxF.trans ctxC)).trans rfl
    · exact (congrArg Ctx.forcedZero (ctxF.trans ctxC)).trans rfl
    · exact (congrArg Ctx.refreshCount (ctxF.trans ctxC)).trans rfl
    · refine (congrArg Ctx.silent (ctxF.trans ctxC)).trans (if_neg fun h => ?_)
      exact Bool.false_ne_true (loud.symm.trans h.1)
    · have waiting := (congrArg Ctx.waiting (ctxF.trans ctxC)).trans
        (if_neg fun h => Bool.false_ne_true (loud.symm.trans h.1))
      exact (congrArg (Tab.get · p) waiting).trans (Tab.get_const ..)
    · exact (congrArg Ctx.silent (ctxF.trans ctxC)).trans (if_pos ⟨silent, idle⟩)
    · have waiting := (congrArg Ctx.waiting (ctxF.trans ctxC)).trans (if_pos ⟨silent, idle⟩)
      refine (congrArg (Tab.get · p) waiting).trans ((Tab.get_ofFn ..).trans ?_)
      have same : (s.taken.replied 0x85 tag [0]).fallbackPick = s.fallbackPick := fallbackPick_congr rfl rfl
      have choice : (s.taken.replied 0x85 tag [0]).sys = s.sys := rfl
      rw [same, choice, fallbackPick_eq, clear]
      cases fallbackCeiling s (fallbackOf (s.sys Sys.silentFallback)) p <;> rfl
    · have row := units.sets g
      simp only [mapped, nat, State.dueIn, tickC] at row
      exact row
    · exact (units.feeders i).trans (mapped' i)

end Sys2Proof.Machine

/-!
SUPPORT. The quantities of a pass: frequency, rocof, the allowance, the division among plants, and their ranges (R21 to R42).
-/
namespace Sys2Proof.Machine

/-! ### Settings in range (R170) -/

theorem setting_between {k : ItemName} {lo hi : Int} (range : ∀ v, k.inRange v = between lo hi v)
    (fallback : lo ≤ k.default ∧ k.default ≤ hi) (s : State) : lo ≤ s.setting k ∧ s.setting k ≤ hi := by
  unfold State.setting
  dsimp only
  split
  · next inside =>
    rw [range] at inside
    simpa [between] using inside
  · exact fallback

theorem plantCapacity_pos (s : State) (p : Fin 8) : 0 ≤ s.plantCapacity p :=
  Int.le_trans (by decide) (setting_between (k := .plant p 1) (lo := 1) (hi := 30000) (fun _ => rfl)
    (show 1 ≤ (1000 : Int) ∧ (1000 : Int) ≤ 30000 by decide) s).1

theorem rampUpStep_nonneg (s : State) : 0 ≤ s.sys Sys.rampUpStep :=
  Int.le_trans (by decide) (setting_between (k := .sys Sys.rampUpStep) (fun _ => rfl) (by decide) s).1

theorem reservePct_nonneg (s : State) : 0 ≤ s.sys Sys.reservePct :=
  (setting_between (k := .sys Sys.reservePct) (lo := 0) (fun _ => rfl) (by decide) s).1

theorem plantCapacities_nonneg (s : State) (plants : List (Fin 8)) : 0 ≤ (plants.map s.plantCapacity).sum := by
  induction plants with
  | nil => exact Int.le_refl 0
  | cons p plants ih =>
    rw [List.map_cons, List.sum_cons]
    exact Int.add_nonneg (plantCapacity_pos s p) ih

theorem sumCapacity_nonneg (s : State) : 0 ≤ s.sumCapacity := plantCapacities_nonneg s _

/-! ### Frequency (R21) -/

theorem frequency_low {t : Nat} (low : t < 142858) : frequency t = (70000, true) := if_pos (by omega)

theorem frequency_high {t : Nat} (high : 250000 < t) : frequency t = (40000, true) := by
  unfold frequency
  rw [if_neg (by omega), if_pos high]

theorem frequency_mid {t : Nat} (lo : 142858 ≤ t) (hi : t ≤ 250000) :
    frequency t = ((((20000000000 + t) / (2 * t) : Nat) : Int), false) := by
  unfold frequency
  rw [if_neg (by omega), if_neg (by omega)]

theorem frequency_clamped (t : Nat) : (frequency t).2 = (decide (t < 142858) || decide (250000 < t)) := by
  rcases Nat.lt_or_ge t 142858 with low | lo
  · rw [frequency_low low, decide_eq_true low]; rfl
  · rcases Nat.lt_or_ge 250000 t with high | hi
    · rw [frequency_high high, decide_eq_true high, Bool.or_true]
    · rw [frequency_mid lo hi, decide_eq_false (by omega), decide_eq_false (by omega)]; rfl

/-- The frequency of a period, rounded to the nearest mHz. -/
theorem frequency_rounds {t : Nat} (lo : 142858 ≤ t) (hi : t ≤ 250000) :
    (2 * (frequency t).1 - 1) * t ≤ 20000000000 ∧ 20000000000 < (2 * (frequency t).1 + 1) * t := by
  rw [frequency_mid lo hi]
  have below := Nat.div_mul_le_self (20000000000 + t) (2 * t)
  have above := Nat.lt_div_mul_add (a := 20000000000 + t) (b := 2 * t) (by omega)
  generalize (20000000000 + t) / (2 * t) = q at below above
  have cast : ((q * (2 * t) : Nat) : Int) = 2 * (q : Int) * t := by
    push_cast; rw [Int.mul_left_comm, Int.mul_assoc]
  have left : (2 * (q : Int) - 1) * t = 2 * (q : Int) * t - t := by rw [Int.sub_mul, Int.one_mul]
  have right : (2 * (q : Int) + 1) * t = 2 * (q : Int) * t + t := by rw [Int.add_mul, Int.one_mul]
  dsimp only
  rw [left, right, ← cast]
  omega

theorem frequency_range (t : Nat) : 40000 ≤ (frequency t).1 ∧ (frequency t).1 ≤ 70000 := by
  rcases Nat.lt_or_ge t 142858 with low | lo
  · rw [frequency_low low]; decide
  · rcases Nat.lt_or_ge 250000 t with high | hi
    · rw [frequency_high high]; decide
    · rw [frequency_mid lo hi]
      have least : 40000 ≤ (20000000000 + t) / (2 * t) := (Nat.le_div_iff_mul_le (by omega)).2 (by omega)
      have most : (20000000000 + t) / (2 * t) < 70001 := (Nat.div_lt_iff_lt_mul (by omega)).2 (by omega)
      dsimp only
      omega

/-! ### The ring and rocof (R22, R23) -/

/-- The entry appended is the youngest of the ring. -/
theorem appendRing_eq (n : Nat) (ring : List RingEntry) (e : RingEntry) :
    appendRing n ring e = ring.drop (ring.length - n) ++ [e] := by
  unfold appendRing
  dsimp only
  rw [List.length_append, List.length_singleton, Nat.add_sub_add_right, List.drop_append_of_le_length (Nat.sub_le _ _)]

theorem appendRing_getLast? (n : Nat) (ring : List RingEntry) (e : RingEntry) :
    (appendRing n ring e).getLast? = some e := by
  rw [appendRing_eq, List.getLast?_concat]

theorem clamp_eq (lo hi v : Int) : clamp lo hi v = max lo (min hi v) := rfl

theorem rocofOf_unsettled {n : Nat} {ring : List RingEntry} (few : settled n ring = false) : rocofOf n ring = 0 := by
  unfold rocofOf; rw [few]; rfl

theorem rocofOf_settled {n : Nat} {oldest new : RingEntry} {middle : List RingEntry}
    (full : settled n (oldest :: middle) = true) (last : (oldest :: middle).getLast? = some new) :
    rocofOf n (oldest :: middle) = if (middle.map RingEntry.t).sum = 0 then 0
      else max (-20000) (min 20000 (Int.tdiv ((new.f - oldest.f) * 10000000) (middle.map RingEntry.t).sum)) := by
  unfold rocofOf
  rw [full, last]
  rfl

theorem rocofOf_range (n : Nat) (ring : List RingEntry) : -20000 ≤ rocofOf n ring ∧ rocofOf n ring ≤ 20000 := by
  unfold rocofOf
  split
  · split
    · dsimp only
      split
      · decide
      · rw [clamp_eq]; omega
    · decide
  · decide

/-! ### The division among plants (R39, R40) -/

theorem giveLeftover_cons (left : Int) (p : Fin 8) (share capacity : Int) (rest : List (Fin 8 × Int × Int)) :
    giveLeftover left ((p, share, capacity) :: rest) =
      if 0 < left ∧ share < capacity then (p, share + 1) :: giveLeftover (left - 1) rest
      else (p, share) :: giveLeftover left rest := rfl

theorem divide_eq (s : State) (pool : Int) (plants : List (Fin 8)) : s.divide pool plants =
    giveLeftover (pool - (plants.map fun p => min (s.plantCapacity p)
        (Int.tdiv (pool * s.plantCapacity p) (plants.map s.plantCapacity).sum)).sum)
      (plants.map fun p => (p, min (s.plantCapacity p)
        (Int.tdiv (pool * s.plantCapacity p) (plants.map s.plantCapacity).sum), s.plantCapacity p)) := by
  unfold State.divide
  dsimp only
  rw [List.map_map]
  rfl

/-- Shares from 0 to the capacity stay so when the leftover is given out. -/
theorem giveLeftover_range {cap : Fin 8 → Int} (l : List (Fin 8 × Int × Int)) (left : Int)
    (within : ∀ x ∈ l, 0 ≤ x.2.1 ∧ x.2.1 ≤ x.2.2 ∧ x.2.2 = cap x.1) :
    ∀ y ∈ giveLeftover left l, 0 ≤ y.2 ∧ y.2 ≤ cap y.1 := by
  induction l generalizing left with
  | nil => exact fun y mem => by cases mem
  | cons x l ih =>
    obtain ⟨p, share, capacity⟩ := x
    obtain ⟨nonneg, most, own⟩ := within _ List.mem_cons_self
    have rest := fun left => ih left fun x mem => within x (List.mem_cons_of_mem _ mem)
    dsimp only at nonneg most own
    intro y mem
    rw [giveLeftover_cons] at mem
    split at mem
    · next room =>
      rcases List.mem_cons.1 mem with rfl | mem
      · exact ⟨by dsimp only; omega, by dsimp only; omega⟩
      · exact rest _ y mem
    · rcases List.mem_cons.1 mem with rfl | mem
      · exact ⟨nonneg, own ▸ most⟩
      · exact rest _ y mem

theorem divide_range {s : State} {pool : Int} (nonneg : 0 ≤ pool) (plants : List (Fin 8)) :
    ∀ y ∈ s.divide pool plants, 0 ≤ y.2 ∧ y.2 ≤ s.plantCapacity y.1 := by
  rw [divide_eq]
  refine giveLeftover_range _ _ fun x mem => ?_
  obtain ⟨p, -, rfl⟩ := List.mem_map.1 mem
  have capacity := plantCapacity_pos s p
  have total := plantCapacities_nonneg s plants
  exact ⟨Int.le_min.2 ⟨capacity, Int.tdiv_nonneg (Int.mul_nonneg nonneg capacity) total⟩, Int.min_le_left .., rfl⟩

theorem shareOf_range {s : State} {pool : Int} (nonneg : 0 ≤ pool) (plants : List (Fin 8)) (p : Fin 8) :
    0 ≤ shareOf (s.divide pool plants) p ∧ shareOf (s.divide pool plants) p ≤ s.plantCapacity p := by
  unfold shareOf
  cases found : (s.divide pool plants).find? fun x => x.1 = p with
  | none => exact ⟨Int.le_refl 0, plantCapacity_pos s p⟩
  | some y =>
    have own : y.1 = p := by simpa using List.find?_some found
    have := divide_range nonneg plants y (List.mem_of_find?_eq_some found)
    rw [own] at this
    exact this

end Sys2Proof.Machine

/-!
SUPPORT. The balance pass as a whole (R18, R20, R38 to R42).
-/
namespace Sys2Proof.Machine

/-! ### The ceilings of a pass are taken beside BEN and the hand-overs -/

theorem takeCeilings_off {cs : Tab 8 (Option Int)} {s : State} (off : s.sst.mode ≠ .run) : takeCeilings cs s = s :=
  if_neg (by simpa [State.inRun] using off)

theorem takeCeilings_withBen (cs : Tab 8 (Option Int)) (d : Ben) (s : State) :
    takeCeilings cs { s with ben := d } = { takeCeilings cs s with ben := d } := by
  by_cases run : s.sst.mode = .run
  · rw [takeCeilings_run run, takeCeilings_run (s := { s with ben := d }) run]; rfl
  · rw [takeCeilings_off run, takeCeilings_off (s := { s with ben := d }) run]

/-- Only the waiting ceilings and the refresh count move. -/
theorem takeCeilings_shape (cs : Tab 8 (Option Int)) (s : State) : takeCeilings cs s = { s with
    ctx.waiting := (takeCeilings cs s).ctx.waiting, ctx.refreshCount := (takeCeilings cs s).ctx.refreshCount } := by
  by_cases run : s.sst.mode = .run
  · rw [takeCeilings_run run]
  · rw [takeCeilings_off run]

theorem takeCeilings_eq (cs : Tab 8 (Option Int)) (s : State) :
    takeCeilings cs s = { s with ctx := (takeCeilings cs s).ctx } := by
  rw [takeCeilings_shape]

/-- Where only the waiting ceilings and the refresh count of CTX differ. -/
def Ctx.besidePass (c d : Ctx) : Prop := d = { c with waiting := d.waiting, refreshCount := d.refreshCount }

theorem takeCeilings_besidePass (cs : Tab 8 (Option Int)) (s : State) : s.ctx.besidePass (takeCeilings cs s).ctx := by
  have shape := congrArg State.ctx (takeCeilings_shape cs s)
  exact shape

theorem besidePass_state {s : State} {c : Ctx} (beside : s.ctx.besidePass c) (ben : Ben) (out : List Handover) :
    ({ s with ben := ben, ctx := c, handovers := out } : State) = { s with
      ben := ben, ctx.waiting := c.waiting, ctx.refreshCount := c.refreshCount, handovers := out } :=
  congrArg (fun c => ({ s with ben := ben, ctx := c, handovers := out } : State)) beside

theorem takeCeilings_withBen_ctx (cs : Tab 8 (Option Int)) (d : Ben) (s : State) :
    (takeCeilings cs { s with ben := d }).ctx = (takeCeilings cs s).ctx := by
  rw [takeCeilings_withBen]

/-! ### The pass on a DEAD record (R20) -/

/-- The record of a pass on a DEAD record. -/
def State.deadRecord (s : State) (ps : PassStart) : PassRecord := { s.baseRecord ps with
  stableTime := some 0
  a := if s.ctx.forcedZero = true then some 0 else none
  ceilings := if s.ctx.forcedZero = true then s.zeroCeilings else Tab.const 8 none }

theorem deadPass_eq (ps : PassStart) (s : State) : deadPass ps s = { s with
    ben.ring := [], ben.stableMs := 0, ben.record := s.deadRecord ps
    ben.aPrev := if s.ctx.forcedZero = true then 0 else s.ben.aPrev
    ctx := if s.ctx.forcedZero = true then (takeCeilings s.zeroCeilings s).ctx else s.ctx
    handovers := s.handovers ++ [.present (conditionValues false false false false false false false false), .bssPass] } := by
  by_cases zero : s.ctx.forcedZero = true
  · have record : s.deadRecord ps = { s.baseRecord ps with stableTime := some 0, a := some 0, ceilings := s.zeroCeilings } := by
      unfold State.deadRecord; rw [if_pos zero, if_pos zero]
    have taken := takeCeilings_withBen s.zeroCeilings { s.ben with
      ring := [], stableMs := 0, aPrev := 0, record := s.deadRecord ps } s
    have stages : deadPass ps s = emit .bssPass (emit (.present (conditionValues false false false false false false
        false false)) (takeCeilings s.zeroCeilings { s with ben := { s.ben with
          ring := [], stableMs := 0, aPrev := 0, record := s.deadRecord ps } })) := by
      rw [record]; exact if_pos zero
    rw [stages, taken, takeCeilings_eq, if_pos zero, if_pos zero]
    simp only [emit, List.append_assoc, List.cons_append, List.nil_append]
  · have record : s.deadRecord ps = { s.baseRecord ps with stableTime := some 0 } := by
      unfold State.deadRecord; rw [if_neg zero, if_neg zero]; rfl
    have stages : deadPass ps s = emit .bssPass (emit (.present (conditionValues false false false false false false
        false false)) { s with ben := { s.ben with ring := [], stableMs := 0, record := s.deadRecord ps } }) := by
      rw [record]; exact if_neg zero
    rw [stages, if_neg zero, if_neg zero]
    simp only [emit, List.append_assoc, List.cons_append, List.nil_append]

/-! ### The pass on a PERIOD record (R21 to R42) -/

section
variable (s : State) (ps : PassStart)

/-- The frequency, the ring and the limits of a pass. -/
def PassStart.f : Int := (frequency ps.value).1

def State.passRing : List RingEntry := appendRing (s.sysNat Sys.rocofWindow) s.ben.ring ⟨ps.f, ps.value⟩

def State.passFloor : Int := s.floorLimit (s.sumP ps.heads) (s.sumG ps.heads) s.sumFloor

def State.passDroop : Int := s.droopLimit ps.f (s.sumP ps.heads)

def State.passAllowance : Int := s.allowance (s.passFloor ps) s.capLimit (s.passDroop ps) s.rampLimit

def State.passStable : Nat := if ps.f < s.sys Sys.restoreFMin then 0 else s.ben.stableMs

/-- The record of a pass on a PERIOD record. -/
def State.periodRecord : PassRecord := { s.baseRecord ps with
  f := some ps.f
  rocof := some (rocofOf (s.sysNat Sys.rocofWindow) (s.passRing ps))
  settled := settled (s.sysNat Sys.rocofWindow) (s.passRing ps)
  clamped := (frequency ps.value).2
  aFloor := some (s.passFloor ps), aCap := some s.capLimit, aDroop := some (s.passDroop ps)
  aRamp := some s.rampLimit, a := some (s.passAllowance ps)
  ceilings := s.distribute ps.heads (s.passAllowance ps), stableTime := some (s.passStable ps) }

/-- What a pass on a PERIOD record presents. -/
def State.periodValues : List (Fin 24 × Bool) := conditionValues (ps.f < s.sys Sys.ufDeep)
  (settled (s.sysNat Sys.rocofWindow) (s.passRing ps) &&
    rocofOf (s.sysNat Sys.rocofWindow) (s.passRing ps) < -s.sys Sys.rocofThreshold)
  (ps.f < s.sys Sys.ufLow) (s.overload (s.sumG ps.heads) s.sumRated)
  (s.sumHeadroom ps.heads < s.reserve (s.sumP ps.heads)) (s.sys Sys.ofThreshold < ps.f)
  (s.surplus (s.sumHeadroom ps.heads) (s.reserve (s.sumP ps.heads)))
  (s.restoreReady (s.passStable ps) (s.sumHeadroom ps.heads))

theorem periodPass_eq : periodPass ps s = { s with
    ben.ring := s.passRing ps, ben.aPrev := s.passAllowance ps, ben.stableMs := s.passStable ps
    ben.record := s.periodRecord ps
    ctx := (takeCeilings (s.distribute ps.heads (s.passAllowance ps)) s).ctx
    handovers := s.handovers ++ [.present (s.periodValues ps), .bssPass] } := by
  have taken := takeCeilings_withBen (s.distribute ps.heads (s.passAllowance ps)) { s.ben with
    ring := s.passRing ps, aPrev := s.passAllowance ps, stableMs := s.passStable ps, record := s.periodRecord ps } s
  have stages : periodPass ps s = emit .bssPass (emit (.present (s.periodValues ps))
    (takeCeilings (s.distribute ps.heads (s.passAllowance ps)) { s with ben := { s.ben with
      ring := s.passRing ps, aPrev := s.passAllowance ps, stableMs := s.passStable ps, record := s.periodRecord ps } })) := rfl
  rw [stages, taken, takeCeilings_eq]
  simp only [emit, List.append_assoc, List.cons_append, List.nil_append]

end

/-! ### The pass taken (R18) -/

/-- The state in which a pass start is taken. -/
def State.passTaken (s : State) (rest : List PassStart) : State := { s with
  ben.starts := rest, ben.passNumber := s.ben.passNumber + 1 }

theorem takePass_dead {ps : PassStart} (dead : ps.kind = .dead) (s : State) :
    takePass ps s = deadPass ps { s with ben.passNumber := s.ben.passNumber + 1 } := by
  unfold takePass; rw [dead]

theorem takePass_period {ps : PassStart} (other : ps.kind ≠ .dead) (s : State) :
    takePass ps s = periodPass ps { s with ben.passNumber := s.ben.passNumber + 1 } := by
  unfold takePass
  cases kind : ps.kind with
  | dead => exact absurd kind other
  | period => rfl
  | none => rfl

theorem takeNextPass_idle {s : State} (idle : s.ben.starts = []) : takeNextPass s = s := by
  unfold takeNextPass; rw [idle]

theorem takeNextPass_dead {s : State} {ps : PassStart} {rest : List PassStart} (starts : s.ben.starts = ps :: rest)
    (dead : ps.kind = .dead) : takeNextPass s = deadPass ps (s.passTaken rest) := by
  unfold takeNextPass; rw [starts]; exact takePass_dead dead _

theorem takeNextPass_period {s : State} {ps : PassStart} {rest : List PassStart} (starts : s.ben.starts = ps :: rest)
    (other : ps.kind ≠ .dead) : takeNextPass s = periodPass ps (s.passTaken rest) := by
  unfold takeNextPass; rw [starts]; exact takePass_period other _

/-- Both kinds of pass fill these fields of the record. -/
theorem passTaken_baseRecord (s : State) (ps : PassStart) (rest : List PassStart) :
    (s.passTaken rest).baseRecord ps = { s.baseRecord ps with number := s.ben.passNumber + 1 } := rfl

/-- What every pass leaves. -/
theorem takeNextPass_leaves {s : State} {ps : PassStart} {rest : List PassStart} (starts : s.ben.starts = ps :: rest) :
    let u := takeNextPass s
    u.ben.starts = rest ∧ u.ben.passNumber = s.ben.passNumber + 1 ∧
    (∃ w : PassRecord, u.ben.record = { (s.passTaken rest).baseRecord ps with
      f := w.f, rocof := w.rocof, settled := w.settled, clamped := w.clamped, aFloor := w.aFloor, aCap := w.aCap
      aDroop := w.aDroop, aRamp := w.aRamp, a := w.a, ceilings := w.ceilings, stableTime := w.stableTime }) ∧
    u = { s with
      ben := u.ben, ctx.waiting := u.ctx.waiting, ctx.refreshCount := u.ctx.refreshCount, handovers := u.handovers } := by
  intro u
  by_cases dead : ps.kind = .dead
  · have whole : u = _ := (takeNextPass_dead starts dead).trans (deadPass_eq ..)
    rw [whole]
    refine ⟨rfl, rfl, ⟨(s.passTaken rest).deadRecord ps, rfl⟩, besidePass_state (s := s) ?_ _ _⟩
    split
    · rw [State.passTaken, takeCeilings_withBen_ctx]; exact takeCeilings_besidePass _ s
    · exact rfl
  · have whole : u = _ := (takeNextPass_period starts dead).trans (periodPass_eq ..)
    rw [whole]
    refine ⟨rfl, rfl, ⟨(s.passTaken rest).periodRecord ps, rfl⟩, besidePass_state (s := s) ?_ _ _⟩
    rw [State.passTaken, takeCeilings_withBen_ctx]
    exact takeCeilings_besidePass _ s

end Sys2Proof.Machine

/-!
SUPPORT. The balance pass in the words of the rules: the aggregates, the limits, the conditions, the ceilings (R24 to R41).
-/
namespace Sys2Proof.Machine

/-! ### The aggregates (R24 to R27, R31) -/

section
variable (s : State) (heads : Tab 31 HeadEntry)

theorem sumPlants_serving (v : Fin 8 → Int) : s.sumPlants (fun _ => true) v =
    (((List.finRange 8).filter fun p => s.plantInstalled p && (s.plantRow p).inService).map v).sum := by
  unfold State.sumPlants State.plantServes
  simp only [Bool.and_true]

theorem plantOutput_eq (p : Fin 8) : s.plantOutput heads p =
    if (heads.get (plantHead p)).judgement = .fresh then max 0 ((heads.get (plantHead p)).value.getD 0)
    else (s.plantRow p).lastSent.getD (s.plantCapacity p) := by
  unfold State.plantOutput
  cases (s.plantRow p).lastSent <;> rfl

theorem sumP_eq : s.sumP heads =
    (((List.finRange 8).filter fun p => s.plantInstalled p && (s.plantRow p).inService).map fun p =>
      if (heads.get (plantHead p)).judgement = .fresh then max 0 ((heads.get (plantHead p)).value.getD 0)
      else (s.plantRow p).lastSent.getD (s.plantCapacity p)).sum := by
  unfold State.sumP
  rw [sumPlants_serving, funext (plantOutput_eq s heads)]

theorem sumCapacity_eq : s.sumCapacity =
    (((List.finRange 8).filter fun p => s.plantInstalled p && (s.plantRow p).inService).map s.plantCapacity).sum :=
  sumPlants_serving s s.plantCapacity

/-- The reserve rounds its percentage up. -/
theorem reserve_rounds {p : Int} (nonneg : 0 ≤ p) :
    s.sys Sys.reservePct * p ≤ 100 * (s.reserve p - s.sys Sys.reserveFixed) ∧
    100 * (s.reserve p - s.sys Sys.reserveFixed) < s.sys Sys.reservePct * p + 100 := by
  have product : 0 ≤ s.sys Sys.reservePct * p := Int.mul_nonneg (reservePct_nonneg s) nonneg
  unfold State.reserve
  generalize s.sys Sys.reservePct * p = x at product
  rw [Int.tdiv_eq_ediv_of_nonneg (by omega)]
  omega

/-! ### The limits and the conditions (R28 to R33, R37) -/

theorem droopLimit_eq (f p : Int) : s.droopLimit f p =
    if f - s.sys Sys.fNom - s.sys Sys.droopDb ≤ 0 then s.sumCapacity
    else max 0 (Int.tdiv (p * (s.sys Sys.droopSpan - (f - s.sys Sys.fNom - s.sys Sys.droopDb))) (s.sys Sys.droopSpan)) := by
  have edge : f - (s.sys Sys.fNom + s.sys Sys.droopDb) = f - s.sys Sys.fNom - s.sys Sys.droopDb := by omega
  unfold State.droopLimit
  dsimp only
  rw [edge]
  exact ite_congr_iff (by omega) rfl rfl

theorem allowance_eq (floor cap droop ramp : Int) : s.allowance floor cap droop ramp =
    if s.ctx.forcedZero = true then 0 else min floor (min cap (min droop ramp)) := rfl

theorem surplus_iff (h r : Int) : s.surplus h r = true ↔ ∃ c, s.stopSelection = some c ∧ 2 ≤ s.onlineCount ∧
    r + s.sys Sys.stopMargin ≤ h - s.setRated c := by
  unfold State.surplus
  cases s.stopSelection with
  | none => simp
  | some c => simp

theorem restoreReady_iff (stable : Nat) (h : Int) : s.restoreReady stable h = true ↔ ∃ q qs, s.fdc.queue = q :: qs ∧
    s.sysNat Sys.restoreDelay ≤ stable ∧
    (s.feederRec q).preShed.getD (s.feederNominal q) + s.sys Sys.restoreMargin ≤ h := by
  have need : ∀ q, s.need q = (s.feederRec q).preShed.getD (s.feederNominal q) := fun q => by
    unfold State.need; cases (s.feederRec q).preShed <;> rfl
  unfold State.restoreReady State.fits
  cases s.fdc.queue with
  | nil => simp
  | cons q qs => simp [need]

/-! ### The ceilings (R39 to R41) -/

theorem servingClass_eq (b : Bool) : s.servingClass b = (List.finRange 8).filter fun p =>
    s.plantInstalled p && (s.plantRow p).inService && s.plantFlex p == b := by
  unfold State.servingClass State.plantServes
  refine List.filter_congr fun p _ => ?_
  cases s.plantFlex p <;> cases b <;> rfl

theorem firmOutput_eq : s.sumPlants (fun p => !s.plantFlex p) (s.plantOutput heads) =
    ((s.servingClass false).map (s.plantOutput heads)).sum := by
  unfold State.sumPlants State.servingClass
  congr 2
  refine List.filter_congr fun p _ => ?_
  dsimp only
  cases s.plantFlex p <;> rfl

theorem distribute_get (a : Int) (p : Fin 8) : (s.distribute heads a).get p =
    let fo := ((s.servingClass false).map (s.plantOutput heads)).sum
    if s.plantInstalled p = false then none
    else if s.ctx.forcedZero = true ∨ (s.plantRow p).inService = false then some 0
    else if fo ≤ a then
      some (if s.plantFlex p = true then shareOf (s.divide (a - fo) (s.servingClass true)) p else s.plantCapacity p)
    else some (if s.plantFlex p = true then 0 else shareOf (s.divide a (s.servingClass false)) p) := by
  unfold State.distribute
  dsimp only
  rw [Tab.get_ofFn, firmOutput_eq]
  refine ite_congr_iff (by simp) rfl (ite_congr_iff (by simp) rfl rfl)

/-- Every ceiling of a non-negative allowance lies between 0 and the capacity (R42). -/
theorem distribute_range {a : Int} (nonneg : 0 ≤ a) {p : Fin 8} {c : Int} (given : (s.distribute heads a).get p = some c) :
    0 ≤ c ∧ c ≤ s.plantCapacity p := by
  have capacity := plantCapacity_pos s p
  rw [distribute_get] at given
  dsimp only at given
  split at given
  · cases given
  · split at given
    · cases given; exact ⟨Int.le_refl 0, capacity⟩
    · split at given
      · next enough =>
        cases given
        split
        · exact shareOf_range (by omega) _ p
        · exact ⟨capacity, Int.le_refl _⟩
      · cases given
        split
        · exact ⟨Int.le_refl 0, capacity⟩
        · exact shareOf_range nonneg _ p

theorem passAllowance_range {ps : PassStart} (ramp : 0 ≤ s.ben.aPrev) (cap : 0 ≤ s.ctx.capPct) :
    0 ≤ s.passAllowance ps ∧ s.passAllowance ps ≤ s.sumCapacity := by
  have total := sumCapacity_nonneg s
  have step := rampUpStep_nonneg s
  have floorLow : 0 ≤ s.passFloor ps := Int.le_max_left ..
  have floorHigh : s.passFloor ps ≤ s.sumCapacity := Int.max_le.2 ⟨total, Int.min_le_left ..⟩
  have capLow : 0 ≤ s.capLimit := Int.tdiv_nonneg (Int.mul_nonneg total cap) (by decide)
  have droopLow : 0 ≤ s.passDroop ps := by
    unfold State.passDroop
    rw [droopLimit_eq]
    split
    · exact total
    · exact Int.le_max_left ..
  have rampLow : 0 ≤ s.rampLimit := by unfold State.rampLimit; omega
  unfold State.passAllowance
  rw [allowance_eq]
  split
  · exact ⟨Int.le_refl 0, total⟩
  · exact ⟨Int.le_min.2 ⟨floorLow, Int.le_min.2 ⟨capLow, Int.le_min.2 ⟨droopLow, rampLow⟩⟩⟩,
      Int.le_trans (Int.min_le_left ..) floorHigh⟩

end

/-- What a PERIOD pass computes, for the state in which it is taken. -/
theorem periodPass_computes (s : State) (ps : PassStart) :
    let w := s.periodRecord ps
    let cpv := s.sumCapacity
    (ps.value < 142858 → ps.f = 70000) ∧ (250000 < ps.value → ps.f = 40000) ∧
    (142858 ≤ ps.value → ps.value ≤ 250000 →
      (2 * ps.f - 1) * ps.value ≤ 20000000000 ∧ 20000000000 < (2 * ps.f + 1) * ps.value) ∧
    (w.settled = false → rocofOf (s.sysNat Sys.rocofWindow) (s.passRing ps) = 0) ∧
    (∀ oldest middle, w.settled = true → s.passRing ps = oldest :: middle →
      let total := (middle.map RingEntry.t).sum
      rocofOf (s.sysNat Sys.rocofWindow) (s.passRing ps) = if total = 0 then 0
        else max (-20000) (min 20000 (Int.tdiv ((ps.f - oldest.f) * 10000000) total))) ∧
    s.passFloor ps = max 0 (min cpv (s.sumP ps.heads + s.sumG ps.heads - s.sumFloor - s.sys Sys.floorMargin)) ∧
    s.capLimit = Int.tdiv (cpv * s.ctx.capPct) 100 := by
  refine ⟨fun low => ?_, fun high => ?_, fun lo hi => frequency_rounds lo hi, rocofOf_unsettled,
    fun oldest middle full ring => ?_, rfl, rfl⟩
  · unfold PassStart.f; rw [frequency_low low]
  · unfold PassStart.f; rw [frequency_high high]
  · have last : (s.passRing ps).getLast? = some ⟨ps.f, ps.value⟩ := appendRing_getLast? ..
    have full : settled (s.sysNat Sys.rocofWindow) (s.passRing ps) = true := full
    rw [ring] at last full
    intro total
    rw [ring, rocofOf_settled full last]

/-- Settles O60: the pass of each kind, the division, and the ranges of what a PERIOD pass computes. -/
theorem balancePassOfEachKind : Obligations.BalancePassOfEachKind := by
  refine ⟨fun s calm idle => ?_, fun s ps rest calm starts => ?_, fun s heads a => ?_, fun s pool plants => ?_,
    fun left p share capacity rest => ⟨rfl, rfl⟩, fun s ps period ramp cap => ?_⟩
  · have stays := takeNextPass_idle idle
    exact congrArg Host.Outcome.next ((takeEvent_calm calm (by rw [stays])).trans stays)
  · intro online output g rg fg h serving produced p cpv fl r
    have runs : exec .balancePass s = .next (cascade (takeNextPass s)) :=
      congrArg Host.Outcome.next (takeEvent_high takeNextPass s calm.1)
    obtain ⟨starts', number, ⟨w, record⟩, beside⟩ := takeNextPass_leaves starts
    have pEq : s.sumP ps.heads = p := sumP_eq s ps.heads
    have cEq : s.sumCapacity = cpv := sumCapacity_eq s
    refine ⟨takeNextPass s, runs, starts', number, ?_, fun nonneg => ?_, fun dead => ?_, fun period => ?_, beside⟩
    · intro w'
      rw [show w' = _ from record, passTaken_baseRecord]
      refine ⟨rfl, rfl, rfl, rfl, congrArg some pEq, rfl, rfl, rfl, rfl, congrArg (fun p => some (s.reserve p)) pEq, rfl⟩
    · exact reserve_rounds s nonneg
    · intro w'
      have whole := (takeNextPass_dead starts dead).trans (deadPass_eq ..)
      have rec_ : w' = (s.passTaken rest).deadRecord ps := congrArg (fun x => x.ben.record) whole
      have ctx : (takeNextPass s).ctx = if s.ctx.forcedZero = true then (takeCeilings s.zeroCeilings s).ctx else s.ctx := by
        rw [whole, ← takeCeilings_withBen_ctx s.zeroCeilings (s.passTaken rest).ben s]; rfl
      have ceilings : w'.ceilings = if s.ctx.forcedZero = true then s.zeroCeilings else Tab.const 8 none :=
        congrArg PassRecord.ceilings rec_
      have out := congrArg State.handovers whole
      refine ⟨by rw [rec_]; rfl, by rw [rec_]; rfl, by rw [rec_]; rfl, by rw [rec_]; rfl, by rw [rec_]; rfl,
        by rw [rec_]; rfl, by rw [rec_]; rfl, by rw [rec_]; rfl, by rw [rec_]; rfl, by rw [rec_]; rfl, fun i => ?_,
        by rw [whole], by rw [whole], by rw [whole]; rfl, ?_, out.trans (congrArg (· ++ _) calm.2)⟩
      · rw [ceilings]
        by_cases zero : s.ctx.forcedZero = true
        · rw [if_pos zero, State.zeroCeilings, Tab.get_ofFn]
          exact ite_congr_iff (and_iff_right zero).symm rfl rfl
        · rw [if_neg zero, if_neg fun both => zero both.1]
          exact Tab.get_const ..
      · rw [ctx, ceilings]
        split <;> rfl
    · intro w' n t
      have whole := (takeNextPass_period starts (by rw [period]; exact BusKind.noConfusion)).trans (periodPass_eq ..)
      have rec_ : w' = (s.passTaken rest).periodRecord ps := congrArg (fun x => x.ben.record) whole
      have ring : (takeNextPass s).ben.ring = s.passRing ps := congrArg (fun x => x.ben.ring) whole
      have stable : (takeNextPass s).ben.stableMs = s.passStable ps := congrArg (fun x => x.ben.stableMs) whole
      have out := congrArg State.handovers whole
      obtain ⟨low, high, mid, few, full, floor, cap⟩ := periodPass_computes s ps
      have isSettled : w'.settled = settled n (s.passRing ps) := congrArg PassRecord.settled rec_
      have ceilings : w'.ceilings = s.distribute ps.heads (s.passAllowance ps) := congrArg PassRecord.ceilings rec_
      refine ⟨ps.f, rocofOf n (s.passRing ps), s.passFloor ps, s.capLimit, s.passDroop ps, s.rampLimit, s.passAllowance ps,
        by rw [rec_]; rfl, by rw [rec_]; rfl, by rw [rec_]; rfl, by rw [rec_]; rfl, by rw [rec_]; rfl, by rw [rec_]; rfl,
        by rw [rec_]; rfl, ?_, low, high, mid, ring, ?_, fun unsettled => ?_, fun oldest middle settled_ eq => ?_, ?_, ?_, ?_,
        rfl, rfl, ?_, ceilings, stable, ?_, ?_, ?_⟩
      · rw [rec_]; exact frequency_clamped ps.value
      · rw [ring]; exact isSettled
      · exact few (isSettled.symm.trans unsettled)
      · exact full oldest middle (isSettled.symm.trans settled_) (ring.symm.trans eq)
      · rw [floor, cEq, pEq]; rfl
      · rw [cap, cEq]
      · intro excess
        rw [← cEq, ← pEq]
        exact droopLimit_eq s ps.f (s.sumP ps.heads)
      · exact congrArg (fun x => x.ben.aPrev) whole
      · rw [rec_, stable]; rfl
      · rw [ceilings, ← takeCeilings_withBen_ctx _ (s.passTaken rest).ben s, whole]; rfl
      · refine ⟨s.surplus h r, s.restoreReady (s.passStable ps) h, surplus_iff s h r, ?_, ?_⟩
        · rw [stable]; exact restoreReady_iff s _ h
        · refine out.trans ?_
          have reserve : s.reserve (s.sumP ps.heads) = r := by rw [pEq]; rfl
          rw [isSettled, ← reserve]
          exact congrArg (· ++ _) calm.2
  · exact ⟨servingClass_eq s, distribute_get s heads a⟩
  · intro w share
    exact divide_eq s pool plants
  · have whole : takePass ps s = _ := (takePass_period (by rw [period]; exact BusKind.noConfusion) s).trans (periodPass_eq ..)
    have range := passAllowance_range { s with ben.passNumber := s.ben.passNumber + 1 } (ps := ps) ramp cap
    intro w
    have record : w = ({ s with ben.passNumber := s.ben.passNumber + 1 } : State).periodRecord ps := by
      show (takePass ps s).ben.record = _
      rw [whole]
    rw [record, whole]
    refine ⟨⟨ps.f, rfl, frequency_range _⟩, ⟨_, rfl, rocofOf_range ..⟩, ⟨_, rfl, range.1, range.2, rfl⟩, fun p c given => ?_⟩
    exact distribute_range _ ps.heads range.1 given

end Sys2Proof.Machine
